-- ==== Sys2Proof/Word.lean ====
section
/-! DEFINITION. The words of the machine (bytes, command words, samples) and the fixed array of three voices
(00_scope.md R6, R10; 41_oscillator.md R226: an "array of exactly 3 voices"). -/

namespace Sys2Proof

/-- One byte register of the register file (30_encoding.md R130). -/
abbrev Byte := BitVec 8

/-- One unit of the command port, and of the result port (30_encoding.md R141). -/
abbrev Word := BitVec 32

/-- A register address: 5 bits, 0x00 to 0x1F (20_memory.md R100). -/
abbrev Addr := BitVec 5

/-- An emitted sample: signed 16 bits, read with `BitVec.toInt` (10_state.md R64). -/
abbrev Sample := BitVec 16

/-- The voices v = 0, 1, 2 (00_scope.md R10). -/
inductive VoiceId where
  | v0
  | v1
  | v2
deriving DecidableEq, Repr

/-- One value for each of the three voices. -/
structure PerVoice (α : Type) where
  v0 : α
  v1 : α
  v2 : α
deriving DecidableEq, Repr

/-- The value of voice v. -/
def PerVoice.get {α : Type} (p : PerVoice α) (v : VoiceId) : α :=
  match v with
  | .v0 => p.v0
  | .v1 => p.v1
  | .v2 => p.v2

/-- The array with voice v's value replaced. -/
def PerVoice.set {α : Type} (p : PerVoice α) (v : VoiceId) (x : α) : PerVoice α :=
  match v with
  | .v0 => { p with v0 := x }
  | .v1 => { p with v1 := x }
  | .v2 => { p with v2 := x }

/-- The array that holds `f v` for each voice v. -/
def PerVoice.ofFn {α : Type} (f : VoiceId → α) : PerVoice α :=
  ⟨f .v0, f .v1, f .v2⟩

end Sys2Proof
end

