-- ==== Sys2Proof/Syntax.lean ====
section
/-! DEFINITION. The commands of the host port: ONE inductive, one constructor for each row of spec/opcode_table.json
(30_encoding.md R145 to R147), its arguments the row's fields. -/

namespace Sys2Proof

inductive Instr where
  /-- WR 0x00, data: FREQ_LO0 (R403). -/
  | wrFreqLo0 (data : Byte)
  /-- WR 0x01, data: FREQ_HI0 (R404). -/
  | wrFreqHi0 (data : Byte)
  /-- WR 0x02, data: PW_LO0 (R405). -/
  | wrPwLo0 (data : Byte)
  /-- WR 0x03, data: PW_HI0 (R406). -/
  | wrPwHi0 (data : Byte)
  /-- WR 0x04, data: CONTROL0 (R407). -/
  | wrControl0 (data : Byte)
  /-- WR 0x05, data: ATTACK_DECAY0 (R408). -/
  | wrAttackDecay0 (data : Byte)
  /-- WR 0x06, data: SUSTAIN_RELEASE0 (R409). -/
  | wrSustainRelease0 (data : Byte)
  /-- WR 0x07, data: FREQ_LO1 (R403). -/
  | wrFreqLo1 (data : Byte)
  /-- WR 0x08, data: FREQ_HI1 (R404). -/
  | wrFreqHi1 (data : Byte)
  /-- WR 0x09, data: PW_LO1 (R405). -/
  | wrPwLo1 (data : Byte)
  /-- WR 0x0A, data: PW_HI1 (R406). -/
  | wrPwHi1 (data : Byte)
  /-- WR 0x0B, data: CONTROL1 (R407). -/
  | wrControl1 (data : Byte)
  /-- WR 0x0C, data: ATTACK_DECAY1 (R408). -/
  | wrAttackDecay1 (data : Byte)
  /-- WR 0x0D, data: SUSTAIN_RELEASE1 (R409). -/
  | wrSustainRelease1 (data : Byte)
  /-- WR 0x0E, data: FREQ_LO2 (R403). -/
  | wrFreqLo2 (data : Byte)
  /-- WR 0x0F, data: FREQ_HI2 (R404). -/
  | wrFreqHi2 (data : Byte)
  /-- WR 0x10, data: PW_LO2 (R405). -/
  | wrPwLo2 (data : Byte)
  /-- WR 0x11, data: PW_HI2 (R406). -/
  | wrPwHi2 (data : Byte)
  /-- WR 0x12, data: CONTROL2 (R407). -/
  | wrControl2 (data : Byte)
  /-- WR 0x13, data: ATTACK_DECAY2 (R408). -/
  | wrAttackDecay2 (data : Byte)
  /-- WR 0x14, data: SUSTAIN_RELEASE2 (R409). -/
  | wrSustainRelease2 (data : Byte)
  /-- WR 0x15, data: FC_LO (R410). -/
  | wrFcLo (data : Byte)
  /-- WR 0x16, data: FC_HI (R410). -/
  | wrFcHi (data : Byte)
  /-- WR 0x17, data: RES_FILT (R411). -/
  | wrResFilt (data : Byte)
  /-- WR 0x18, data: MODE_VOL (R412). -/
  | wrModeVol (data : Byte)
  /-- WR 0x19, data: unmapped (R400, R101). -/
  | wrUnmapped19 (data : Byte)
  /-- WR 0x1A, data: unmapped (R400, R101). -/
  | wrUnmapped1A (data : Byte)
  /-- WR 0x1B, data: unmapped (R400, R101). -/
  | wrUnmapped1B (data : Byte)
  /-- WR 0x1C, data: unmapped (R400, R101). -/
  | wrUnmapped1C (data : Byte)
  /-- WR 0x1D, data: unmapped (R400, R101). -/
  | wrUnmapped1D (data : Byte)
  /-- WR 0x1E, data: unmapped (R400, R101). -/
  | wrUnmapped1E (data : Byte)
  /-- WR 0x1F, data: unmapped (R400, R101). -/
  | wrUnmapped1F (data : Byte)
  /-- RD addr (R431). -/
  | rd (addr : Addr)
  /-- RESET (R420). -/
  | reset
  /-- SETMODEL A (R421). -/
  | setModelA
  /-- SETMODEL B (R421). -/
  | setModelB
  /-- SETRATE host, chip: three words (R422, R144). -/
  | setRate (host chip : Word)
  /-- CLK n (R440). -/
  | clk (n : BitVec 28)
  /-- RSMP (R441). -/
  | rsmp
  /-- RENDER n (R442). -/
  | render (n : BitVec 28)
  /-- MON WAVE0 (R432). -/
  | monWave0
  /-- MON WAVE1 (R432). -/
  | monWave1
  /-- MON WAVE2 (R432). -/
  | monWave2
  /-- MON ENV0 (R432). -/
  | monEnv0
  /-- MON ENV1 (R432). -/
  | monEnv1
  /-- MON ENV2 (R432). -/
  | monEnv2
  /-- MON FC (R432). -/
  | monFc
  /-- MON VOL (R432). -/
  | monVol
  /-- SETEXT DITHER d (R450). -/
  | setExtDither (val : BitVec 1)
  /-- SETEXT GAIN v, g (R451); v = 3 is ill-formed. -/
  | setExtGain (v : BitVec 2) (val : BitVec 9)
  /-- SETEXT BOOST b (R452); b > 256 is ill-formed. -/
  | setExtBoost (val : BitVec 9)
  /-- SETEXT AM mask (R453). -/
  | setExtAm (mask : BitVec 3)
  /-- SETEXT RMODE NEAREST (R454). -/
  | setExtRmodeNearest
  /-- SETEXT RMODE LINEAR (R454). -/
  | setExtRmodeLinear
  /-- SETEXT RMODE BANDLIMITED (R454). -/
  | setExtRmodeBandlimited
  /-- opcode 0x0, no command: raises IllegalCommand (R501); rest is bits 27:0. -/
  | illegalOp0 (rest : BitVec 28)
  /-- opcode 0xB, no command: raises IllegalCommand (R501); rest is bits 27:0. -/
  | illegalOpB (rest : BitVec 28)
  /-- opcode 0xC, no command: raises IllegalCommand (R501); rest is bits 27:0. -/
  | illegalOpC (rest : BitVec 28)
  /-- opcode 0xD, no command: raises IllegalCommand (R501); rest is bits 27:0. -/
  | illegalOpD (rest : BitVec 28)
  /-- opcode 0xE, no command: raises IllegalCommand (R501); rest is bits 27:0. -/
  | illegalOpE (rest : BitVec 28)
  /-- opcode 0xF, no command: raises IllegalCommand (R501); rest is bits 27:0. -/
  | illegalOpF (rest : BitVec 28)
deriving DecidableEq, Repr

end Sys2Proof
end

