-- ==== Sys2Proof/WellFormed.lean ====
section
/-! DEFINITION. Which command terms have an encoding (30_encoding.md R147): every term but SETEXT GAIN with V = 3 and
SETEXT BOOST with VAL > 256. Register data is never illegal (R149). -/

namespace Sys2Proof

/-- The value checks of R147 on the fields of a command. -/
def Instr.wf (i : Instr) : Bool :=
  match i with
  | .wrFreqLo0 _ => true
  | .wrFreqHi0 _ => true
  | .wrPwLo0 _ => true
  | .wrPwHi0 _ => true
  | .wrControl0 _ => true
  | .wrAttackDecay0 _ => true
  | .wrSustainRelease0 _ => true
  | .wrFreqLo1 _ => true
  | .wrFreqHi1 _ => true
  | .wrPwLo1 _ => true
  | .wrPwHi1 _ => true
  | .wrControl1 _ => true
  | .wrAttackDecay1 _ => true
  | .wrSustainRelease1 _ => true
  | .wrFreqLo2 _ => true
  | .wrFreqHi2 _ => true
  | .wrPwLo2 _ => true
  | .wrPwHi2 _ => true
  | .wrControl2 _ => true
  | .wrAttackDecay2 _ => true
  | .wrSustainRelease2 _ => true
  | .wrFcLo _ => true
  | .wrFcHi _ => true
  | .wrResFilt _ => true
  | .wrModeVol _ => true
  | .wrUnmapped19 _ => true
  | .wrUnmapped1A _ => true
  | .wrUnmapped1B _ => true
  | .wrUnmapped1C _ => true
  | .wrUnmapped1D _ => true
  | .wrUnmapped1E _ => true
  | .wrUnmapped1F _ => true
  | .rd _ => true
  | .reset => true
  | .setModelA => true
  | .setModelB => true
  | .setRate _ _ => true
  | .clk _ => true
  | .rsmp => true
  | .render _ => true
  | .monWave0 => true
  | .monWave1 => true
  | .monWave2 => true
  | .monEnv0 => true
  | .monEnv1 => true
  | .monEnv2 => true
  | .monFc => true
  | .monVol => true
  | .setExtDither _ => true
  | .setExtGain v _ => v != 3#2
  | .setExtBoost val => val.ule 256#9
  | .setExtAm _ => true
  | .setExtRmodeNearest => true
  | .setExtRmodeLinear => true
  | .setExtRmodeBandlimited => true
  | .illegalOp0 _ => true
  | .illegalOpB _ => true
  | .illegalOpC _ => true
  | .illegalOpD _ => true
  | .illegalOpE _ => true
  | .illegalOpF _ => true

end Sys2Proof
end

