-- ==== Sys2Proof/Decode.lean ====
section
/-! DEFINITION. The command words (30_encoding.md R141 to R148): the decoder, total on every list of words and rejecting
by name, and the encoder written from the same formats. -/

namespace Sys2Proof

/-- Why the words at the port are no command. The last three raise IllegalCommand (30_encoding.md R148); the first two
are waits. -/
inductive Reject where
  /-- No word is waiting (60_exceptions.md R516). -/
  | noCommand
  /-- A SETRATE whose operand words have not both arrived (R144). -/
  | awaitingOperands
  /-- A bit that must be 0 is not (R148 (b), (d)). -/
  | reservedBits (w : Word)
  /-- A MON selector 3, 7 or 10 to 15 (R146, R148 (c)). -/
  | badSelector (w : Word)
  /-- A SETEXT sub-operation, voice or value that R147 calls illegal (R148 (d)). -/
  | badExtension (w : Word)
deriving DecidableEq, Repr

/-! ## The fields of a command word (R142) -/

/-- OP, bits 31:28. -/
def opField (w : Word) : BitVec 4 := w.extractLsb' 28 4

/-- Bits 27:0: the rest of the word, and N of format C. -/
def lowField (w : Word) : BitVec 28 := w.extractLsb' 0 28

/-- ADDR, bits 12:8 of formats AD and A. -/
def addrField (w : Word) : Addr := w.extractLsb' 8 5

/-- DATA, bits 7:0 of format AD. -/
def dataField (w : Word) : Byte := w.extractLsb' 0 8

/-- SEL, bits 3:0 of format S. -/
def selField (w : Word) : BitVec 4 := w.extractLsb' 0 4

/-- SUB, bits 27:24 of format X. -/
def subField (w : Word) : BitVec 4 := w.extractLsb' 24 4

/-- V, bits 17:16 of format X. -/
def voiceField (w : Word) : BitVec 2 := w.extractLsb' 16 2

/-- VAL, bits 8:0 of format X. -/
def valField (w : Word) : BitVec 9 := w.extractLsb' 0 9

/-- How many words a command has, read from its first word: 3 for OP = 0x5, otherwise 1 (R144). -/
def commandLength (w : Word) : Nat :=
  if opField w = 0x5#4 then 3 else 1

/-! ## The decoder -/

/-- The WR command of an address (R102): one constructor for each register and each unmapped address. -/
def wrCommand (a : Addr) (d : Byte) : Instr :=
  match a.toNat with
  | 0 => .wrFreqLo0 d
  | 1 => .wrFreqHi0 d
  | 2 => .wrPwLo0 d
  | 3 => .wrPwHi0 d
  | 4 => .wrControl0 d
  | 5 => .wrAttackDecay0 d
  | 6 => .wrSustainRelease0 d
  | 7 => .wrFreqLo1 d
  | 8 => .wrFreqHi1 d
  | 9 => .wrPwLo1 d
  | 10 => .wrPwHi1 d
  | 11 => .wrControl1 d
  | 12 => .wrAttackDecay1 d
  | 13 => .wrSustainRelease1 d
  | 14 => .wrFreqLo2 d
  | 15 => .wrFreqHi2 d
  | 16 => .wrPwLo2 d
  | 17 => .wrPwHi2 d
  | 18 => .wrControl2 d
  | 19 => .wrAttackDecay2 d
  | 20 => .wrSustainRelease2 d
  | 21 => .wrFcLo d
  | 22 => .wrFcHi d
  | 23 => .wrResFilt d
  | 24 => .wrModeVol d
  | 25 => .wrUnmapped19 d
  | 26 => .wrUnmapped1A d
  | 27 => .wrUnmapped1B d
  | 28 => .wrUnmapped1C d
  | 29 => .wrUnmapped1D d
  | 30 => .wrUnmapped1E d
  | _ => .wrUnmapped1F d

/-- Format AD: bits 27:13 are 0. -/
def decodeWr (w : Word) : Except Reject Instr :=
  if w.extractLsb' 13 15 = 0#15 then .ok (wrCommand (addrField w) (dataField w)) else .error (.reservedBits w)

/-- Format A: bits 27:13 and 7:0 are 0. -/
def decodeRd (w : Word) : Except Reject Instr :=
  if w.extractLsb' 13 15 = 0#15 ∧ dataField w = 0#8 then .ok (.rd (addrField w)) else .error (.reservedBits w)

/-- Format Z: bits 27:0 are 0. -/
def decodeZ (i : Instr) (w : Word) : Except Reject Instr :=
  if lowField w = 0#28 then .ok i else .error (.reservedBits w)

/-- Format M: bits 27:1 are 0; bit 0 names the model. -/
def decodeModel (w : Word) : Except Reject Instr :=
  if w.extractLsb' 1 27 = 0#27 then
    .ok (if w.getLsbD 0 then .setModelB else .setModelA)
  else .error (.reservedBits w)

/-- Format S: bits 27:4 are 0; the selectors of R146. -/
def decodeMon (w : Word) : Except Reject Instr :=
  if w.extractLsb' 4 24 = 0#24 then
    match (selField w).toNat with
    | 0 => .ok .monWave0
    | 1 => .ok .monWave1
    | 2 => .ok .monWave2
    | 4 => .ok .monEnv0
    | 5 => .ok .monEnv1
    | 6 => .ok .monEnv2
    | 8 => .ok .monFc
    | 9 => .ok .monVol
    | _ => .error (.badSelector w)
  else .error (.reservedBits w)

/-- The reserved bits of format X: 23:18 and 15:9 are 0. -/
def extReservedZero (w : Word) : Bool :=
  w.extractLsb' 18 6 == 0#6 && w.extractLsb' 9 7 == 0#7

/-- SETEXT DITHER: V = 0 and VAL[8:1] = 0 (R147). -/
def decodeDither (w : Word) : Except Reject Instr :=
  if voiceField w = 0#2 ∧ w.extractLsb' 1 8 = 0#8 then .ok (.setExtDither (w.extractLsb' 0 1))
  else .error (.badExtension w)

/-- SETEXT GAIN: V = 3 is illegal (R147). -/
def decodeGain (w : Word) : Except Reject Instr :=
  if voiceField w = 3#2 then .error (.badExtension w) else .ok (.setExtGain (voiceField w) (valField w))

/-- SETEXT BOOST: V = 0 and VAL <= 256 (R147). -/
def decodeBoost (w : Word) : Except Reject Instr :=
  if voiceField w = 0#2 ∧ (valField w).toNat ≤ 256 then .ok (.setExtBoost (valField w))
  else .error (.badExtension w)

/-- SETEXT AM: V = 0 and VAL[8:3] = 0 (R147). -/
def decodeAm (w : Word) : Except Reject Instr :=
  if voiceField w = 0#2 ∧ w.extractLsb' 3 6 = 0#6 then .ok (.setExtAm (w.extractLsb' 0 3))
  else .error (.badExtension w)

/-- SETEXT RMODE: V = 0, VAL[8:2] = 0, VAL[1:0] not 3 (R147). -/
def decodeRmode (w : Word) : Except Reject Instr :=
  if voiceField w = 0#2 ∧ w.extractLsb' 2 7 = 0#7 then
    match (w.extractLsb' 0 2).toNat with
    | 0 => .ok .setExtRmodeNearest
    | 1 => .ok .setExtRmodeLinear
    | 2 => .ok .setExtRmodeBandlimited
    | _ => .error (.badExtension w)
  else .error (.badExtension w)

/-- Format X: the sub-operations of R147. -/
def decodeExt (w : Word) : Except Reject Instr :=
  if extReservedZero w then
    match (subField w).toNat with
    | 0 => decodeDither w
    | 1 => decodeGain w
    | 2 => decodeBoost w
    | 3 => decodeAm w
    | 4 => decodeRmode w
    | _ => .error (.badExtension w)
  else .error (.reservedBits w)

/-- A command of one word, by its opcode (R145). Opcode 0x5 is no command of one word: `decode` reads it. -/
def decodeOne (w : Word) : Except Reject Instr :=
  match (opField w).toNat with
  | 0x0 => .ok (.illegalOp0 (lowField w))
  | 0x1 => decodeWr w
  | 0x2 => decodeRd w
  | 0x3 => decodeZ .reset w
  | 0x4 => decodeModel w
  | 0x5 => .error .awaitingOperands
  | 0x6 => .ok (.clk (lowField w))
  | 0x7 => decodeZ .rsmp w
  | 0x8 => .ok (.render (lowField w))
  | 0x9 => decodeMon w
  | 0xA => decodeExt w
  | 0xB => .ok (.illegalOpB (lowField w))
  | 0xC => .ok (.illegalOpC (lowField w))
  | 0xD => .ok (.illegalOpD (lowField w))
  | 0xE => .ok (.illegalOpE (lowField w))
  | _ => .ok (.illegalOpF (lowField w))

/-- A SETRATE with both operand words: host rate first, then chip rate; bits 27:0 of the command word are 0 (R142). -/
def decodeRate (w host chip : Word) : Except Reject Instr :=
  decodeZ (.setRate host chip) w

/-- The first command at the port and the words after it. -/
def decode (ws : List Word) : Except Reject (Instr × List Word) :=
  match ws with
  | [] => .error .noCommand
  | w :: rest =>
    if opField w = 0x5#4 then
      match rest with
      | host :: chip :: rest' => (decodeRate w host chip).map (fun i => (i, rest'))
      | _ => .error .awaitingOperands
    else (decodeOne w).map (fun i => (i, rest))

/-! ## The encoder -/

/-- Format AD with opcode WR (R142). -/
def wordWr (a : Addr) (d : Byte) : Word := 0x1#4 ++ 0#15 ++ a ++ d

/-- Format A with opcode RD (R142). -/
def wordRd (a : Addr) : Word := 0x2#4 ++ 0#15 ++ a ++ 0#8

/-- Format Z (R142). -/
def wordZ (op : BitVec 4) : Word := op ++ 0#28

/-- Format M (R142). -/
def wordModel (m : BitVec 1) : Word := 0x4#4 ++ 0#27 ++ m

/-- Format C, and any opcode with the rest of its word (R142). -/
def wordC (op : BitVec 4) (n : BitVec 28) : Word := op ++ n

/-- Format S with opcode MON (R142). -/
def wordMon (sel : BitVec 4) : Word := 0x9#4 ++ 0#24 ++ sel

/-- Format X (R142). -/
def wordExt (sub : BitVec 4) (v : BitVec 2) (val : BitVec 9) : Word := 0xA#4 ++ sub ++ 0#6 ++ v ++ 0#7 ++ val

/-- The words of a command (R142, R145 to R147, R150). -/
def encode (i : Instr) : List Word :=
  match i with
  | .wrFreqLo0 data => [wordWr 0x00#5 data]
  | .wrFreqHi0 data => [wordWr 0x01#5 data]
  | .wrPwLo0 data => [wordWr 0x02#5 data]
  | .wrPwHi0 data => [wordWr 0x03#5 data]
  | .wrControl0 data => [wordWr 0x04#5 data]
  | .wrAttackDecay0 data => [wordWr 0x05#5 data]
  | .wrSustainRelease0 data => [wordWr 0x06#5 data]
  | .wrFreqLo1 data => [wordWr 0x07#5 data]
  | .wrFreqHi1 data => [wordWr 0x08#5 data]
  | .wrPwLo1 data => [wordWr 0x09#5 data]
  | .wrPwHi1 data => [wordWr 0x0A#5 data]
  | .wrControl1 data => [wordWr 0x0B#5 data]
  | .wrAttackDecay1 data => [wordWr 0x0C#5 data]
  | .wrSustainRelease1 data => [wordWr 0x0D#5 data]
  | .wrFreqLo2 data => [wordWr 0x0E#5 data]
  | .wrFreqHi2 data => [wordWr 0x0F#5 data]
  | .wrPwLo2 data => [wordWr 0x10#5 data]
  | .wrPwHi2 data => [wordWr 0x11#5 data]
  | .wrControl2 data => [wordWr 0x12#5 data]
  | .wrAttackDecay2 data => [wordWr 0x13#5 data]
  | .wrSustainRelease2 data => [wordWr 0x14#5 data]
  | .wrFcLo data => [wordWr 0x15#5 data]
  | .wrFcHi data => [wordWr 0x16#5 data]
  | .wrResFilt data => [wordWr 0x17#5 data]
  | .wrModeVol data => [wordWr 0x18#5 data]
  | .wrUnmapped19 data => [wordWr 0x19#5 data]
  | .wrUnmapped1A data => [wordWr 0x1A#5 data]
  | .wrUnmapped1B data => [wordWr 0x1B#5 data]
  | .wrUnmapped1C data => [wordWr 0x1C#5 data]
  | .wrUnmapped1D data => [wordWr 0x1D#5 data]
  | .wrUnmapped1E data => [wordWr 0x1E#5 data]
  | .wrUnmapped1F data => [wordWr 0x1F#5 data]
  | .rd addr => [wordRd addr]
  | .reset => [wordZ 0x3#4]
  | .setModelA => [wordModel 0#1]
  | .setModelB => [wordModel 1#1]
  | .setRate host chip => [wordZ 0x5#4, host, chip]
  | .clk n => [wordC 0x6#4 n]
  | .rsmp => [wordZ 0x7#4]
  | .render n => [wordC 0x8#4 n]
  | .monWave0 => [wordMon 0#4]
  | .monWave1 => [wordMon 1#4]
  | .monWave2 => [wordMon 2#4]
  | .monEnv0 => [wordMon 4#4]
  | .monEnv1 => [wordMon 5#4]
  | .monEnv2 => [wordMon 6#4]
  | .monFc => [wordMon 8#4]
  | .monVol => [wordMon 9#4]
  | .setExtDither val => [wordExt 0#4 0#2 (val.zeroExtend 9)]
  | .setExtGain v val => [wordExt 1#4 v val]
  | .setExtBoost val => [wordExt 2#4 0#2 val]
  | .setExtAm mask => [wordExt 3#4 0#2 (mask.zeroExtend 9)]
  | .setExtRmodeNearest => [wordExt 4#4 0#2 0#9]
  | .setExtRmodeLinear => [wordExt 4#4 0#2 1#9]
  | .setExtRmodeBandlimited => [wordExt 4#4 0#2 2#9]
  | .illegalOp0 rest => [wordC 0x0#4 rest]
  | .illegalOpB rest => [wordC 0xB#4 rest]
  | .illegalOpC rest => [wordC 0xC#4 rest]
  | .illegalOpD rest => [wordC 0xD#4 rest]
  | .illegalOpE rest => [wordC 0xE#4 rest]
  | .illegalOpF rest => [wordC 0xF#4 rest]

/-! ## The opcode table's words -/

/-- The words of a command whose bits are `w`, numbered as spec/opcode_table.json numbers them (bit 0 the least
significant bit of the first word); bits from `nbits` up are 0. -/
def tableWords (nbits w : Nat) : List Word :=
  let u := w % 2 ^ nbits
  let first : Word := BitVec.ofNat 32 u
  if commandLength first = 3 then [first, BitVec.ofNat 32 (u / 2 ^ 32), BitVec.ofNat 32 (u / 2 ^ 64)] else [first]

/-- The instruction the decoder reads from those words. -/
def decodeTableWord (nbits w : Nat) : Option Instr :=
  match decode (tableWords nbits w) with
  | .ok (i, _) => some i
  | .error _ => none

end Sys2Proof
end

