-- ==== Sys2Proof/Config.lean ====
section
/-! DEFINITION. What the spec leaves wholly open (00_scope.md R8) as constants with no body, the enumerations its
parameters range over, and the values construction is called with (70_reset_and_hazards.md R600). The parameters that
have a default in the spec (00_scope.md R7) stand in Sys2Proof/Machine/Params.lean and Cutoff.lean. -/

namespace Sys2Proof

/-- The two calibration profiles (10_state.md R60: 0 = A, 1 = B). -/
inductive ChipModel where
  | a
  | b
deriving DecidableEq, Repr

/-- The encoding of the model registers (10_state.md R60). -/
def ChipModel.code : ChipModel → BitVec 1
  | .a => 0#1
  | .b => 1#1

/-- The render modes (10_state.md R61; code 3 is reserved). -/
inductive RenderMode where
  | nearest
  | linear
  | bandlimited
deriving DecidableEq, Repr

/-- The encoding of RENDER_MODE (10_state.md R61). -/
def RenderMode.code : RenderMode → BitVec 2
  | .nearest => 0#2
  | .linear => 1#2
  | .bandlimited => 2#2

/-- The waveform selectors that are looked up in a table (41_oscillator.md R245: SEL in 3, 5, 6, 7). -/
inductive CombinedSel where
  | triSaw
  | triPulse
  | sawPulse
  | triSawPulse
deriving DecidableEq, Repr

/-- The selector nibble of a combined waveform (41_oscillator.md R240). -/
def CombinedSel.code : CombinedSel → BitVec 4
  | .triSaw => 3#4
  | .triPulse => 5#4
  | .sawPulse => 6#4
  | .triSawPulse => 7#4

/-- SYNC_EVENT, the event of the sync source that resets its destination (41_oscillator.md R225). -/
inductive SyncEvent where
  | wrap
  | msbRise
deriving DecidableEq, Repr

/-- NOISE_MAP, which bits of the LFSR form the noise output (41_oscillator.md R244). -/
inductive NoiseMap where
  | topBits
  | historical
deriving DecidableEq, Repr

/-- CW_TABLE(model, sel, idx), the hardware-measured combined-waveform tables. Their content is in no source, so the
constant has no body and a proof holds for every table (00_scope.md R8, 41_oscillator.md R245; log 7, safe). -/
opaque Config.cwTable : ChipModel → CombinedSel → BitVec 12 → BitVec 12

/-- The host rate `State.reset` is constructed with, in hertz. DESIGN CHOICE, log 1 (unsafe). -/
def Config.hostRate : Word := 48000#32

/-- The chip rate `State.reset` is constructed with, in hertz. DESIGN CHOICE, log 1 (unsafe). -/
def Config.chipRate : Word := 985248#32

/-- MODEL0, the model at construction (00_scope.md R7, 10_state.md R91). -/
def Config.model0 : ChipModel := .a

end Sys2Proof
end

