-- ==== Sys2Proof/Machine/Bits.lean ====
section
/-! DEFINITION. The arithmetic primitives of the spec's pseudocode on exact integers (00_scope.md R9) and the narrowing
back to a register's width. -/

namespace Sys2Proof.Machine

/-- `x >> k` on a signed integer: floor(x / 2^k) (R9). -/
def asr (x : Int) (k : Nat) : Int := x / 2 ^ k

/-- `wrap32(x)` as the 32 bits of a signed register: the value congruent to x modulo 2^32 (R9). -/
def wrap32 (x : Int) : BitVec 32 := BitVec.ofInt 32 x

/-- `sat16(x)` (R9). -/
def sat16 (x : Int) : Int := min 32767 (max (-32768) x)

/-- A saturated value as a 16-bit sample. -/
def sample16 (x : Int) : Sample := BitVec.ofInt 16 (sat16 x)

/-- `f` applied n times. -/
def repeatTimes {α : Type} (f : α → α) : Nat → α → α
  | 0, a => a
  | n + 1, a => repeatTimes f n (f a)

end Sys2Proof.Machine
end

