-- ==== Sys2Proof/Machine/Params.lean ====
section
/-! DEFINITION. The parameters of 00_scope.md R7 at the defaults that table shows. The defaults the table marks GK are
the spec's general knowledge of the historical chip (93_implementation_defined.md section 2). UNVERIFIED, log 9 (unsafe). -/

namespace Sys2Proof.Machine

/-- SYNC_EVENT (R7, R225). -/
def syncEventKind : SyncEvent := .wrap

/-- NOISE_MAP (R7, R244). -/
def noiseMapKind : NoiseMap := .topBits

/-- LFSR_SEED (R7, R232). -/
def lfsrSeed : BitVec 23 := 0x7FFFF8#23

/-- SRC(v) in the Chip: the voice before, cyclically (10_state.md R56, 41_oscillator.md R226). -/
def syncSource (v : VoiceId) : VoiceId :=
  match v with
  | .v0 => .v2
  | .v1 => .v0
  | .v2 => .v1

/-- RATE_PERIOD[r], the cycles of one rate tick (42_envelope.md R270). -/
def ratePeriod (r : BitVec 4) : BitVec 15 :=
  match r.toNat with
  | 0 => 9#15
  | 1 => 32#15
  | 2 => 63#15
  | 3 => 95#15
  | 4 => 149#15
  | 5 => 220#15
  | 6 => 267#15
  | 7 => 313#15
  | 8 => 392#15
  | 9 => 977#15
  | 10 => 1954#15
  | 11 => 3126#15
  | 12 => 3907#15
  | 13 => 11720#15
  | 14 => 19532#15
  | _ => 31251#15

/-- SUSTAIN_LEVEL(s) = 0x11 * s (42_envelope.md R270). -/
def sustainLevel (s : BitVec 4) : BitVec 8 := 0x11#8 * s.zeroExtend 8

/-- EXP_PERIOD_AT: the exponential period a level sets when the level lands on it (42_envelope.md R270, R274). -/
def expPeriodAt (level : BitVec 8) : Option (BitVec 5) :=
  match level.toNat with
  | 0xFF => some 1#5
  | 0x5D => some 2#5
  | 0x36 => some 4#5
  | 0x1A => some 8#5
  | 0x0E => some 16#5
  | 0x06 => some 30#5
  | 0x00 => some 1#5
  | _ => none

/-- The last value of the 15-bit rate counter before it goes on at 1 (42_envelope.md R271). -/
def rateCounterMax : BitVec 15 := 0x7FFF#15

/-- WAVE_ZERO (44_voice_mixer.md R370). -/
def waveZero : Int := 0x800

/-- VOICE_SHIFT, from 20 to 13 bits (44_voice_mixer.md R372). -/
def voiceShift : Nat := 7

/-- The shift of amplitude modulation (44_voice_mixer.md R371). -/
def amShift : Nat := 12

/-- The shift of the gain trim: 256 is unity (44_voice_mixer.md R374). -/
def gainShift : Nat := 8

/-- DITHER_SEED (44_voice_mixer.md R373). -/
def ditherSeed : Word := 0x00000001#32

/-- EXT_IN at the chip level (44_voice_mixer.md R375). -/
def extIn : Int := 0

/-- SUBSTEP_MAX (43_filter.md R329). -/
def subStepMax : Nat := 8

/-- The scale of W0 times a cycle count, Q20 (43_filter.md R323, R330). -/
def cutoffShift : Nat := 20

/-- The scale of DIVQ (43_filter.md R330). -/
def divqShift : Nat := 10

/-- MIXER_DC(model) (43_filter.md R332). -/
def mixerDc (m : ChipModel) : Int :=
  match m with
  | .a => -454
  | .b => 0

/-- OUT_SHIFT (44_voice_mixer.md R380). -/
def outShift : Nat := 3

end Sys2Proof.Machine
end

