-- ==== Sys2Proof/Machine/Cutoff.lean ====
section
/-! DEFINITION. filter_coeff_spline_interp and the resonance mapping (43_filter.md R320 to R325): from the cutoff and
resonance register fields to the coefficients W0 and DIVQ. -/

namespace Sys2Proof.Machine

/-! ## Cutoff to hertz -/

/-- CUTOFF_POINTS(A): the default of R322, an assumption. PRESUMED, log 8 (unsafe). -/
def cutoffPointsA : List (Nat × Nat) :=
  [(0, 220), (0, 220), (128, 230), (256, 250), (384, 300), (512, 420), (640, 780), (768, 1600)] ++
  [(832, 2300), (896, 3200), (960, 4300), (992, 5000), (1008, 5400), (1016, 5700), (1023, 6000), (1023, 6000)] ++
  [(1024, 4600), (1024, 4600), (1032, 4800), (1056, 5300), (1088, 6000), (1120, 6600), (1152, 7200), (1280, 9500)] ++
  [(1408, 12000), (1536, 14500), (1664, 16000), (1792, 17100), (1920, 17700), (2047, 18000), (2047, 18000)]

/-- CUTOFF_POINTS(B): the default of R322, an assumption. PRESUMED, log 8 (unsafe). -/
def cutoffPointsB : List (Nat × Nat) :=
  [(0, 0), (0, 0), (128, 800), (256, 1600), (384, 2500), (512, 3300), (640, 4100), (768, 4800), (896, 5600)] ++
  [(1024, 6500), (1152, 7500), (1280, 8400), (1408, 9200), (1536, 9800), (1664, 10500), (1792, 11000)] ++
  [(1920, 11700), (2047, 12500), (2047, 12500)]

/-- CUTOFF_POINTS(m) (R321, R322). -/
def cutoffPoints (m : ChipModel) : List (Nat × Nat) :=
  match m with
  | .a => cutoffPointsA
  | .b => cutoffPointsB

/-- The end slopes k1 and k2 of the segment from (x1, y1) to (x2, y2) (R321). -/
def splineSlopes (x0 y0 x1 y1 x2 y2 x3 y3 : Rat) : Rat × Rat :=
  if x0 = x1 ∧ x2 = x3 then
    ((y2 - y1) / (x2 - x1), (y2 - y1) / (x2 - x1))
  else if x0 = x1 then
    let k2 := (y3 - y1) / (x3 - x1)
    ((3 * (y2 - y1) / (x2 - x1) - k2) / 2, k2)
  else if x2 = x3 then
    let k1 := (y2 - y0) / (x2 - x0)
    (k1, (3 * (y2 - y1) / (x2 - x1) - k1) / 2)
  else
    ((y2 - y0) / (x2 - x0), (y3 - y1) / (x3 - x1))

/-- The cubic through (x1, y1) and (x2, y2) with end slopes k1 and k2, at x (R321). -/
def splineCubic (x1 y1 x2 y2 k1 k2 x : Rat) : Rat :=
  let dx := x2 - x1
  let dy := y2 - y1
  let a := ((k1 + k2) - 2 * dy / dx) / (dx * dx)
  let b := ((k2 - k1) / dx - 3 * (x1 + x2) * a) / 2
  let c := k1 - (3 * x1 * a + 2 * b) * x1
  let d := y1 - ((x1 * a + b) * x1 + c) * x1
  ((a * x + b) * x + c) * x + d

/-- What four consecutive points say of x: nothing where they make no segment or x lies outside it (R321). -/
def splineSegment (p0 p1 p2 p3 : Nat × Nat) (x : Nat) : Option Nat :=
  if p1.1 = p2.1 ∨ x < p1.1 ∨ p2.1 < x then none
  else
    let k := splineSlopes p0.1 p0.2 p1.1 p1.2 p2.1 p2.2 p3.1 p3.2
    some (max 0 (splineCubic p1.1 p1.2 p2.1 p2.2 k.1 k.2 x)).floor.toNat

/-- The value at x of every run of four consecutive points, a later segment overwriting an earlier one (R321). -/
def splineAt (points : List (Nat × Nat)) (x acc : Nat) : Nat :=
  match points with
  | p0 :: p1 :: p2 :: p3 :: rest => splineAt (p1 :: p2 :: p3 :: rest) x ((splineSegment p0 p1 p2 p3 x).getD acc)
  | _ => acc

/-- f0(m, fc), in hertz (R320, R321). Where no segment covers fc it is 0, which no default point list meets
(DESIGN CHOICE, log 15). -/
def cutoffHz (m : ChipModel) (fc : BitVec 11) : Nat :=
  splineAt (cutoffPoints m) fc.toNat 0

/-! ## Hertz to W0 -/

/-- The digits of pi the scaling uses: floor(pi * 10^20). DEDUCED, log 10: the result is the real-arithmetic one. -/
def piDigits : Nat := 314159265358979323846

/-- min(2^20 - 1, floor(2 * pi * f0 * 1.048576)) (R323). -/
def w0OfHz (f0 : Nat) : Nat :=
  min (2 ^ 20 - 1) (piDigits * (2 * 1048576 * f0) / (10 ^ 6 * 10 ^ 20))

/-- W0_TABLE(m, fc) (R323). -/
def w0Table (m : ChipModel) (fc : BitVec 11) : BitVec 20 :=
  BitVec.ofNat 20 (w0OfHz (cutoffHz m fc))

/-! ## Resonance -/

/-- DIVQ(res) = floor(1024 / (0.707 + res / 15)), with the fraction cleared by 15000 (R324). -/
def divq (res : BitVec 4) : Nat :=
  1024 * 15000 / (10605 + 1000 * res.toNat)

/-- DIVQ_B(res) at a resonance boost (R325). -/
def divqBoosted (boost : BitVec 9) (res : BitVec 4) : BitVec 11 :=
  BitVec.ofNat 11 (divq res - divq res * boost.toNat * res.toNat / (256 * 15))

end Sys2Proof.Machine
end

