-- ==== Sys2Proof/Machine/State.lean ====
section
/-! DEFINITION. The state of one block instance (10_state.md), of its host boundary (60_exceptions.md R502, R517), and
its value after construction (70_reset_and_hazards.md R600). Plain data throughout. -/

namespace Sys2Proof.Machine

/-! ## The register file -/

/-- The seven byte registers of one voice, in address order (10_state.md R50, 20_memory.md R102). -/
structure VoiceRegs where
  freqLo : Byte
  freqHi : Byte
  pwLo : Byte
  pwHi : Byte
  control : Byte
  attackDecay : Byte
  sustainRelease : Byte
deriving DecidableEq, Repr

/-- The 25 byte registers reg[0x00] to reg[0x18] (R50). -/
structure RegFile where
  voice : PerVoice VoiceRegs
  fcLo : Byte
  fcHi : Byte
  resFilt : Byte
  modeVol : Byte
deriving DecidableEq, Repr

/-! ## The units -/

/-- One PhaseOscillator (R54, R55). -/
structure Osc where
  acc : BitVec 24
  lfsr : BitVec 23
deriving DecidableEq, Repr

/-- The envelope phases (R57). -/
inductive Phase where
  | attack
  | decay
  | sustain
  | release
deriving DecidableEq, Repr

/-- The encoding of PHASE (R57). -/
def Phase.code : Phase → BitVec 2
  | .attack => 0#2
  | .decay => 1#2
  | .sustain => 2#2
  | .release => 3#2

/-- One EnvelopeGenerator (R57): level, phase, rate counter and period, exponential counter and period, and the hold at
zero latch. -/
structure Env where
  level : BitVec 8
  phase : Phase
  rc : BitVec 15
  rp : BitVec 15
  ec : BitVec 5
  ep : BitVec 5
  holdZero : Bool
deriving DecidableEq, Repr

/-- The AnalogFilterModel: integrators and bypass latch, signed 32 bits read with `BitVec.toInt` (R58), and the derived
coefficients (R59). -/
structure Filt where
  vhp : BitVec 32
  vbp : BitVec 32
  vlp : BitVec 32
  vnf : BitVec 32
  w0 : BitVec 20
  divq : BitVec 11
deriving DecidableEq, Repr

/-- The configuration of the opt-in extensions (R61). -/
structure Ext where
  ditherEn : Bool
  gain : PerVoice (BitVec 9)
  boost : BitVec 9
  amEn : PerVoice Bool
  renderMode : RenderMode
deriving DecidableEq, Repr

/-- The ClockAccumulator (R63). -/
structure ClockAcc where
  sRate : Word
  cRate : Word
  resid : Word
deriving DecidableEq, Repr

/-- All the state of one block instance (R50 to R63). -/
structure Chip where
  regs : RegFile
  osc : PerVoice Osc
  env : PerVoice Env
  filt : Filt
  modelPending : ChipModel
  modelActive : ChipModel
  ext : Ext
  dstate : Word
  clock : ClockAcc
deriving DecidableEq, Repr

/-! ## The boundary to the host -/

/-- What the result port returns for one command: its status with its result or the fault's info
(60_exceptions.md R500 to R504). -/
inductive Response where
  /-- Status 0, no result. -/
  | ok
  /-- Status 0 with the 32-bit result of RD or MON. -/
  | okResult (r : Word)
  /-- Status 1 with the command word (R501). -/
  | illegalCommand (word : Word)
  /-- Status 1 of a MON with a bad selector: the command word that R501 names as the info and the selector that
  45_chip_commands.md R432 raises with. DESIGN CHOICE, log 18: both, since no ruling of the spec settles which. -/
  | illegalSelector (word : Word) (sel : BitVec 4)
  /-- Status 2 with the two rates (R503). -/
  | configError (host chip : Word)
  /-- Status 3 with RENDER_MODE (R504). -/
  | unsupported (mode : RenderMode)
deriving DecidableEq, Repr

/-- The status code (R502). -/
def Response.status : Response → Nat
  | .ok => 0
  | .okResult _ => 0
  | .illegalCommand _ => 1
  | .illegalSelector _ _ => 1
  | .configError _ _ => 2
  | .unsupported _ => 3

/-- The result, of RD and MON only (R502). -/
def Response.result : Response → Option Word
  | .okResult r => some r
  | _ => none

/-- The block and its boundary: the words the host has sent and the block has not yet taken, oldest first (R53, R144;
log 4); the samples emitted, oldest first (R64); one response for each command taken, oldest first (R502; log 6). -/
structure State where
  chip : Chip
  commands : List Word
  out : List Sample
  results : List Response
deriving DecidableEq, Repr

/-- How a step could stop. No step does: the block's three faults are outcomes of a command after which the next
command starts normally (60_exceptions.md R500), so they are next states (log 2). The type has no constructor. -/
inductive Fault where
deriving DecidableEq, Repr

/-- Why a command has no meaning. -/
inductive Refusal where
  /-- Raised by an arm of `exec` whose command has no meaning yet; safe. No arm raises it. -/
  | notModelled (mnemonic : String)
deriving DecidableEq, Repr

/-! ## Reset values (10_state.md R90, R91) -/

/-- Every register 0x00. -/
def VoiceRegs.reset : VoiceRegs := ⟨0#8, 0#8, 0#8, 0#8, 0#8, 0#8, 0#8⟩

/-- Every register 0x00. -/
def RegFile.reset : RegFile :=
  { voice := ⟨VoiceRegs.reset, VoiceRegs.reset, VoiceRegs.reset⟩, fcLo := 0#8, fcHi := 0#8, resFilt := 0#8,
    modeVol := 0#8 }

/-- ACC 0 and the noise seed. -/
def Osc.reset : Osc := { acc := 0#24, lfsr := lfsrSeed }

/-- Level 0, released, held at zero. -/
def Env.reset : Env :=
  { level := 0#8, phase := .release, rc := 0#15, rp := ratePeriod 0#4, ec := 0#5, ep := 1#5, holdZero := true }

/-- The filter at rest, with the coefficients of FC = 0 and RES = 0. -/
def Filt.reset (m : ChipModel) (boost : BitVec 9) : Filt :=
  { vhp := 0#32, vbp := 0#32, vlp := 0#32, vnf := 0#32, w0 := w0Table m 0#11, divq := divqBoosted boost 0#4 }

/-- The extension configuration at construction (R91). -/
def Ext.initial : Ext :=
  { ditherEn := false, gain := ⟨256#9, 256#9, 256#9⟩, boost := 0#9, amEn := ⟨false, false, false⟩,
    renderMode := .nearest }

/-- The body of RESET (45_chip_commands.md R420): the synthesis state of R90; the configuration is kept (R601). -/
def Chip.resetBody (c : Chip) : Chip :=
  { c with
    regs := RegFile.reset
    osc := ⟨Osc.reset, Osc.reset, Osc.reset⟩
    env := ⟨Env.reset, Env.reset, Env.reset⟩
    filt := Filt.reset c.modelPending c.ext.boost
    modelActive := c.modelPending
    dstate := ditherSeed
    clock := { c.clock with resid := 0#32 } }

/-- The instance construction makes at two rates (R600). -/
def Chip.constructed (host chip : Word) : Chip :=
  { regs := RegFile.reset
    osc := ⟨Osc.reset, Osc.reset, Osc.reset⟩
    env := ⟨Env.reset, Env.reset, Env.reset⟩
    filt := Filt.reset Config.model0 Ext.initial.boost
    modelPending := Config.model0
    modelActive := Config.model0
    ext := Ext.initial
    dstate := ditherSeed
    clock := { sRate := host, cRate := chip, resid := 0#32 } }

/-- The machine right after construction at the rates of log 1, nothing sent and nothing returned. -/
def State.reset : State :=
  { chip := Chip.constructed Config.hostRate Config.chipRate, commands := [], out := [], results := [] }

end Sys2Proof.Machine
end

