-- ==== Sys2Proof/Machine/Ops.lean ====
section
/-! DEFINITION. The named operations over the register file and over the boundary: addressing a register, reading and
storing its byte, answering a command, raising a fault, emitting samples, construction, and what the host does. -/

namespace Sys2Proof.Machine

/-! ## Registers and their addresses (20_memory.md R102) -/

/-- The 25 registers by name. -/
inductive RegName where
  | freqLo (v : VoiceId)
  | freqHi (v : VoiceId)
  | pwLo (v : VoiceId)
  | pwHi (v : VoiceId)
  | control (v : VoiceId)
  | attackDecay (v : VoiceId)
  | sustainRelease (v : VoiceId)
  | fcLo
  | fcHi
  | resFilt
  | modeVol
deriving DecidableEq, Repr

/-- The base address 7 * v of a voice's registers (10_state.md R52). -/
def voiceBase (v : VoiceId) : Addr :=
  match v with
  | .v0 => 0x00#5
  | .v1 => 0x07#5
  | .v2 => 0x0E#5

/-- The address of a register (R102). -/
def regAddr (r : RegName) : Addr :=
  match r with
  | .freqLo v => voiceBase v
  | .freqHi v => voiceBase v + 1#5
  | .pwLo v => voiceBase v + 2#5
  | .pwHi v => voiceBase v + 3#5
  | .control v => voiceBase v + 4#5
  | .attackDecay v => voiceBase v + 5#5
  | .sustainRelease v => voiceBase v + 6#5
  | .fcLo => 0x15#5
  | .fcHi => 0x16#5
  | .resFilt => 0x17#5
  | .modeVol => 0x18#5

/-- The register of a voice at an offset from its base. -/
def voiceRegAt (v : VoiceId) (offset : Nat) : RegName :=
  match offset with
  | 0 => .freqLo v
  | 1 => .freqHi v
  | 2 => .pwLo v
  | 3 => .pwHi v
  | 4 => .control v
  | 5 => .attackDecay v
  | _ => .sustainRelease v

/-- The register at an address; none at 0x19 to 0x1F (R100, R101). -/
def regAt (a : Addr) : Option RegName :=
  if a.toNat < 0x07 then some (voiceRegAt .v0 a.toNat)
  else if a.toNat < 0x0E then some (voiceRegAt .v1 (a.toNat - 0x07))
  else if a.toNat < 0x15 then some (voiceRegAt .v2 (a.toNat - 0x0E))
  else if a.toNat = 0x15 then some .fcLo
  else if a.toNat = 0x16 then some .fcHi
  else if a.toNat = 0x17 then some .resFilt
  else if a.toNat = 0x18 then some .modeVol
  else none

/-- The byte a register holds. -/
def getReg (f : RegFile) (r : RegName) : Byte :=
  match r with
  | .freqLo v => (f.voice.get v).freqLo
  | .freqHi v => (f.voice.get v).freqHi
  | .pwLo v => (f.voice.get v).pwLo
  | .pwHi v => (f.voice.get v).pwHi
  | .control v => (f.voice.get v).control
  | .attackDecay v => (f.voice.get v).attackDecay
  | .sustainRelease v => (f.voice.get v).sustainRelease
  | .fcLo => f.fcLo
  | .fcHi => f.fcHi
  | .resFilt => f.resFilt
  | .modeVol => f.modeVol

/-- The register file with one register's byte replaced. -/
def setReg (f : RegFile) (r : RegName) (d : Byte) : RegFile :=
  match r with
  | .freqLo v => { f with voice := f.voice.set v { f.voice.get v with freqLo := d } }
  | .freqHi v => { f with voice := f.voice.set v { f.voice.get v with freqHi := d } }
  | .pwLo v => { f with voice := f.voice.set v { f.voice.get v with pwLo := d } }
  | .pwHi v => { f with voice := f.voice.set v { f.voice.get v with pwHi := d } }
  | .control v => { f with voice := f.voice.set v { f.voice.get v with control := d } }
  | .attackDecay v => { f with voice := f.voice.set v { f.voice.get v with attackDecay := d } }
  | .sustainRelease v => { f with voice := f.voice.set v { f.voice.get v with sustainRelease := d } }
  | .fcLo => { f with fcLo := d }
  | .fcHi => { f with fcHi := d }
  | .resFilt => { f with resFilt := d }
  | .modeVol => { f with modeVol := d }

/-- MASK(a) (45_chip_commands.md R401). -/
def regMask (r : RegName) : Byte :=
  match r with
  | .pwHi _ => 0x0F#8
  | .fcLo => 0x07#8
  | _ => 0xFF#8

/-- The byte a read of an address returns: the stored byte, 0x00 at an unmapped address (R431). -/
def readAddr (f : RegFile) (a : Addr) : Byte :=
  match regAt a with
  | some r => getReg f r
  | none => 0x00#8

/-! ## The register field a chip operation stores -/

/-- Store a byte in the chip's register file, nothing else. -/
def storeReg (r : RegName) (d : Byte) (c : Chip) : Chip :=
  { c with regs := setReg c.regs r d }

/-- Replace one oscillator. -/
def setOsc (v : VoiceId) (o : Osc) (c : Chip) : Chip :=
  { c with osc := c.osc.set v o }

/-- Replace one envelope. -/
def setEnv (v : VoiceId) (e : Env) (c : Chip) : Chip :=
  { c with env := c.env.set v e }

/-! ## Ending a command -/

/-- End a command with status OK and a new state of the block (60_exceptions.md R502). -/
def finish (c : Chip) (s : State) : State :=
  { s with chip := c, results := s.results ++ [.ok] }

/-- End a command with status OK and a 32-bit result; the block is unchanged (R502, R108, R109). -/
def answer (r : Word) (s : State) : State :=
  { s with results := s.results ++ [.okResult r] }

/-- `raise`: end a command with a fault. The block's state and the sample stream stay as they were, the fault's status
and info go to the result port, and the next command starts normally (R500, R508; log 2). There is no return from it
to model (R509). -/
def raise (fault : Response) (s : State) : State :=
  { s with results := s.results ++ [fault] }

/-- End a command with status OK, a new state of the block and the samples it emitted (R502, R64). -/
def finishEmitting (c : Chip) (samples : List Sample) (s : State) : State :=
  { s with chip := c, out := s.out ++ samples, results := s.results ++ [.ok] }

/-- Raise IllegalCommand with the command word (R501). -/
def raiseIllegal (w : Word) (s : State) : State :=
  raise (.illegalCommand w) s

/-- `raise IllegalCommand(SEL)` of a MON (45_chip_commands.md R432), with the command word beside the selector (R501;
log 18). -/
def raiseIllegalSelector (w : Word) (s : State) : State :=
  raise (.illegalSelector w (selField w)) s

/-! ## Construction and the host (60_exceptions.md R517) -/

/-- `construct(hostRate, chipRate)`: an instance in the reset state, or ConfigError and no instance (R600). -/
def construct (host chip : Word) : Except Response State :=
  if host = 0#32 ∨ chip = 0#32 then .error (.configError host chip)
  else .ok { chip := Chip.constructed host chip, commands := [], out := [], results := [] }

/-- The host sends words to the command port (R141, R517). -/
def send (ws : List Word) (s : State) : State :=
  { s with commands := s.commands ++ ws }

end Sys2Proof.Machine
end

