-- ==== Sys2Proof/Machine/Operands.lean ====
section
/-! DEFINITION. The operands the rules read: the named views of the register file (10_state.md R52, 30_encoding.md R140)
and the operand forms of the commands (30_encoding.md R143). All are unsigned. -/

namespace Sys2Proof.Machine

/-! ## Views of a voice's registers -/

/-- F[v], 16 bits, low byte at the lower address (R52, R104). -/
def freqOf (r : VoiceRegs) : BitVec 16 := r.freqHi ++ r.freqLo

/-- PW[v], 12 bits (R52, R104). -/
def pwOf (r : VoiceRegs) : BitVec 12 := r.pwHi.extractLsb' 0 4 ++ r.pwLo

/-- GATE, bit 0 of a control byte (R52). -/
def gateBit (ctrl : Byte) : Bool := ctrl.getLsbD 0

/-- SYNC, bit 1 (R52). -/
def syncBit (ctrl : Byte) : Bool := ctrl.getLsbD 1

/-- RING, bit 2 (R52). -/
def ringBit (ctrl : Byte) : Bool := ctrl.getLsbD 2

/-- TEST, bit 3 (R52). -/
def testBit (ctrl : Byte) : Bool := ctrl.getLsbD 3

/-- SEL, bits 7:4 (R52). -/
def selOf (ctrl : Byte) : BitVec 4 := ctrl.extractLsb' 4 4

/-- ATK, bits 7:4 of ATTACK_DECAY (R52). -/
def atkOf (ad : Byte) : BitVec 4 := ad.extractLsb' 4 4

/-- DCY, bits 3:0 of ATTACK_DECAY (R52). -/
def dcyOf (ad : Byte) : BitVec 4 := ad.extractLsb' 0 4

/-- SUS, bits 7:4 of SUSTAIN_RELEASE (R52). -/
def susOf (sr : Byte) : BitVec 4 := sr.extractLsb' 4 4

/-- REL, bits 3:0 of SUSTAIN_RELEASE (R52). -/
def relOf (sr : Byte) : BitVec 4 := sr.extractLsb' 0 4

/-! ## Views of the global registers -/

/-- FC, 11 bits: FC_HI above the three bits of FC_LO (R52, R104). -/
def fcOf (f : RegFile) : BitVec 11 := f.fcHi ++ f.fcLo.extractLsb' 0 3

/-- RES, bits 7:4 of RES_FILT (R52). -/
def resOf (f : RegFile) : BitVec 4 := f.resFilt.extractLsb' 4 4

/-- FILT[v], the routing bit of a voice (R52). -/
def filtVoice (f : RegFile) (v : VoiceId) : Bool :=
  match v with
  | .v0 => f.resFilt.getLsbD 0
  | .v1 => f.resFilt.getLsbD 1
  | .v2 => f.resFilt.getLsbD 2

/-- FILT[3], the routing bit of the external input (R52). -/
def filtExt (f : RegFile) : Bool := f.resFilt.getLsbD 3

/-- OFF3, bit 7 of MODE_VOL (R52). -/
def off3Of (f : RegFile) : Bool := f.modeVol.getLsbD 7

/-- MODE, bits 6:4 of MODE_VOL: bit 0 LP, bit 1 BP, bit 2 HP (R52, R139). -/
def modeOf (f : RegFile) : BitVec 3 := f.modeVol.extractLsb' 4 3

/-- VOL, bits 3:0 of MODE_VOL (R52). -/
def volOf (f : RegFile) : BitVec 4 := f.modeVol.extractLsb' 0 4

/-! ## Operand forms of the commands -/

/-- V of format X as a voice: 3 names none (30_encoding.md R147). -/
def voiceOperand (v : BitVec 2) : Option VoiceId :=
  match v.toNat with
  | 0 => some .v0
  | 1 => some .v1
  | 2 => some .v2
  | _ => none

/-- The AM mask: bit v enables voice v (45_chip_commands.md R453). -/
def amOperand (mask : BitVec 3) : PerVoice Bool :=
  ⟨mask.getLsbD 0, mask.getLsbD 1, mask.getLsbD 2⟩

/-- DITHER_EN from VAL[0] (R450). -/
def ditherOperand (val : BitVec 1) : Bool := val.getLsbD 0

/-- A count N of format C as a natural number (R143). -/
def countOperand (n : BitVec 28) : Nat := n.toNat

end Sys2Proof.Machine
end

