-- ==== Sys2Proof/Machine/Flags.lean ====
section
/-! DEFINITION. The one-bit events the rules compute and do not store (10_state.md R65): the sync event, the noise clock
edge, the gate edges and the TEST edges. The block has no condition codes. -/

namespace Sys2Proof.Machine

/-- EV[v] (41_oscillator.md R225): `sum` is the 25-bit SUM[v], `acc` the start-of-cycle accumulator, `next` NEXT[v]. -/
def syncEventOf (kind : SyncEvent) (test : Bool) (acc : BitVec 24) (sum : BitVec 25) (next : BitVec 24) : Bool :=
  match kind with
  | .wrap => !test && sum.getLsbD 24
  | .msbRise => !test && !acc.getLsbD 23 && next.getLsbD 23

/-- The noise clock edge: bit 19 rises and TEST is clear (R224). -/
def noiseEdge (test : Bool) (acc next : BitVec 24) : Bool :=
  !test && !acc.getLsbD 19 && next.getLsbD 19

/-- The gate-on edge of a control write (42_envelope.md R280). -/
def gateOnEdge (old new : Byte) : Bool := !gateBit old && gateBit new

/-- The gate-off edge of a control write (R280). -/
def gateOffEdge (old new : Byte) : Bool := gateBit old && !gateBit new

/-- TEST cleared by a control write (R232). -/
def testCleared (old new : Byte) : Bool := testBit old && !testBit new

end Sys2Proof.Machine
end

