-- ==== Sys2Proof/Machine/Oscillator.lean ====
section
/-! DEFINITION. phase_accumulator_osc and combined_waveform_lut (41_oscillator.md): the cycle step, the oscillator half
of a control write, and the waveform output. -/

namespace Sys2Proof.Machine

/-! ## The cycle step (R221 to R228) -/

/-- SUM[v], 25 bits: the accumulator does not advance while TEST is set (R221). -/
def oscSum (test : Bool) (acc : BitVec 24) (f : BitVec 16) : BitVec 25 :=
  if test then acc.setWidth 25 else acc.setWidth 25 + f.setWidth 25

/-- NEXT[v], SUM[v] modulo 2^24 (R221). -/
def oscNext (test : Bool) (acc : BitVec 24) (f : BitVec 16) : BitVec 24 :=
  (oscSum test acc f).setWidth 24

/-- EV[v] of an oscillator from its start-of-cycle state (R225). -/
def oscEvent (r : VoiceRegs) (o : Osc) : Bool :=
  let test := testBit r.control
  syncEventOf syncEventKind test o.acc (oscSum test o.acc (freqOf r)) (oscNext test o.acc (freqOf r))

/-- One shift of the noise register: left by one, bit 22 xor bit 17 into bit 0 (R224). -/
def noiseShift (l : BitVec 23) : BitVec 23 :=
  l.extractLsb' 0 22 ++ BitVec.ofBool (l.getLsbD 22 ^^ l.getLsbD 17)

/-- One cycle of one oscillator, given the event of its sync source: the noise clock (R224), then the sync reset or the
advance (R222, R227). -/
def oscStep (r : VoiceRegs) (sourceEvent : Bool) (o : Osc) : Osc :=
  let test := testBit r.control
  let next := oscNext test o.acc (freqOf r)
  { acc := if syncBit r.control && sourceEvent then 0#24 else next
    lfsr := if noiseEdge test o.acc next then noiseShift o.lfsr else o.lfsr }

/-- One cycle of the three oscillators under a wiring of sync sources; every right-hand side reads the start-of-cycle
state (R228, 20_memory.md R113). -/
def oscCycle (src : VoiceId → VoiceId) (r : PerVoice VoiceRegs) (o : PerVoice Osc) : PerVoice Osc :=
  PerVoice.ofFn fun v => oscStep (r.get v) (oscEvent (r.get (src v)) (o.get (src v))) (o.get v)

/-! ## The oscillator half of a control write (R232) -/

/-- TEST set by the write clears both registers; TEST cleared by it reloads the seed. -/
def oscWriteControl (old new : Byte) (o : Osc) : Osc :=
  if testBit new then { acc := 0#24, lfsr := 0#23 }
  else if testCleared old new then { o with lfsr := lfsrSeed }
  else o

/-! ## The output (R240 to R246) -/

/-- TRI[v], folded about the top bit, which the ring term may invert (R241). -/
def triangle (ring sourceTop : Bool) (acc : BitVec 24) : BitVec 12 :=
  if acc.getLsbD 23 ^^ (ring && sourceTop) then ~~~(acc.extractLsb' 11 12) else acc.extractLsb' 11 12

/-- SAW[v], the top 12 bits (R242). -/
def sawtooth (acc : BitVec 24) : BitVec 12 := acc.extractLsb' 12 12

/-- PUL[v] (R243). -/
def pulse (test : Bool) (pw : BitVec 12) (acc : BitVec 24) : BitVec 12 :=
  if test ∨ pw.toNat ≤ (acc.extractLsb' 12 12).toNat then 0xFFF#12 else 0x000#12

/-- The noise output under a NOISE_MAP (R244). -/
def noiseOf (map : NoiseMap) (l : BitVec 23) : BitVec 12 :=
  match map with
  | .topBits => l.extractLsb' 11 12
  | .historical =>
    l.extractLsb' 22 1 ++ l.extractLsb' 20 1 ++ l.extractLsb' 16 1 ++ l.extractLsb' 13 1 ++ l.extractLsb' 11 1 ++
      l.extractLsb' 7 1 ++ l.extractLsb' 4 1 ++ l.extractLsb' 2 1 ++ 0#4

/-- The combined waveform a selector names (R245). -/
def combinedSel (sel : BitVec 4) : Option CombinedSel :=
  match sel.toNat with
  | 3 => some .triSaw
  | 5 => some .triPulse
  | 6 => some .sawPulse
  | 7 => some .triSawPulse
  | _ => none

/-- WAVE of one oscillator, given its sync source's top bit: the pure waveforms, the table lookup, and 0 for the
selectors with no waveform, 0 and 9 to 15 (R240, R245, R246; log 7, log 11). -/
def oscWave (m : ChipModel) (r : VoiceRegs) (sourceTop : Bool) (o : Osc) : BitVec 12 :=
  let sel := selOf r.control
  match combinedSel sel with
  | some cs => Config.cwTable m cs (o.acc.extractLsb' 12 12)
  | none =>
    match sel.toNat with
    | 1 => triangle (ringBit r.control) sourceTop o.acc
    | 2 => sawtooth o.acc
    | 4 => pulse (testBit r.control) (pwOf r) o.acc
    | 8 => noiseOf noiseMapKind o.lfsr
    | _ => 0#12

/-- WAVE[v] of the chip, from the current state (R240, R248). -/
def chipWave (c : Chip) (v : VoiceId) : BitVec 12 :=
  oscWave c.modelActive (c.regs.voice.get v) ((c.osc.get (syncSource v)).acc.getLsbD 23) (c.osc.get v)

end Sys2Proof.Machine
end

