-- ==== Sys2Proof/Machine/Mixer.lean ====
section
/-! DEFINITION. voice_mixer_mac (44_voice_mixer.md): the voice sample with its amplitude modulation, the filter's input
stage (scaling, dither, gain, external input), and the output shaper. -/

namespace Sys2Proof.Machine

/-! ## The voice sample (R370, R371) -/

/-- VS[v] from its waveform, its envelope level and, where AM is on, the modulator's waveform. -/
def voiceSample (am : Bool) (wave : BitVec 12) (level : BitVec 8) (modulator : BitVec 12) : Int :=
  let base := ((wave.toNat : Int) - waveZero) * (level.toNat : Int)
  if am then asr (base * (modulator.toNat : Int)) amShift else base

/-- VS[0..2] of the chip, every waveform read from the same state (R371). -/
def voiceSamples (c : Chip) : PerVoice Int :=
  PerVoice.ofFn fun v =>
    voiceSample (c.ext.amEn.get v) (chipWave c v) (c.env.get v).level (chipWave c (syncSource v))

/-! ## The input stage (R372 to R376) -/

/-- One step of the xorshift32 generator (R373). -/
def ditherNext (x : Word) : Word :=
  let x1 := x ^^^ (x <<< 13)
  let x2 := x1 ^^^ (x1 >>> 17)
  x2 ^^^ (x2 <<< 5)

/-- The dither offset a generator state gives: 7 bits (R373). -/
def ditherOffset (x : Word) : Int := ((x >>> 25).toNat : Int)

/-- The generator state after a filter clock call's draws, in voice order; none is made while dither is off (R373). -/
def ditherState (on : Bool) (x : Word) : Word :=
  if on then ditherNext (ditherNext (ditherNext x)) else x

/-- DITH[0..2] of a filter clock call (R373). -/
def ditherOffsets (on : Bool) (x : Word) : PerVoice Int :=
  if on then
    ⟨ditherOffset (ditherNext x), ditherOffset (ditherNext (ditherNext x)),
      ditherOffset (ditherNext (ditherNext (ditherNext x)))⟩
  else ⟨0, 0, 0⟩

/-- X[v]: scaled to the filter's range with its dither offset (R372), then trimmed by its gain (R374). -/
def scaledInput (vs dith : Int) (gain : BitVec 9) : Int :=
  asr (asr (vs + dith) voiceShift * (gain.toNat : Int)) gainShift

/-- X[0..2] of a filter clock call, from the voice samples (R376). -/
def scaledInputs (ext : Ext) (dstate : Word) (vs : PerVoice Int) : PerVoice Int :=
  PerVoice.ofFn fun v => scaledInput (vs.get v) ((ditherOffsets ext.ditherEn dstate).get v) (ext.gain.get v)

/-- XE, the external input with no dither and no gain (R375). -/
def scaledExt (e : Int) : Int := asr e voiceShift

/-! ## The output shaper (R380) -/

/-- OUT16 of a filter output VO. -/
def conditioned (vo : Int) : Sample := sample16 (asr vo outShift)

end Sys2Proof.Machine
end

