-- ==== Sys2Proof/Machine/Filter.lean ====
section
/-! DEFINITION. state_variable_filter (43_filter.md R326 to R335): the coefficient recompute, the filter clock with its
routing, sub-steps and bypass latch, and the output. -/

namespace Sys2Proof.Machine

/-! ## Coefficients (R326) -/

/-- filt.DIVQ <- DIVQ_B(RES). -/
def recomputeDivq (c : Chip) : Chip :=
  { c with filt := { c.filt with divq := divqBoosted c.ext.boost (resOf c.regs) } }

/-- filt.W0 <- W0_TABLE(MODEL_ACTIVE, FC); filt.DIVQ <- DIVQ_B(RES). -/
def recompute (c : Chip) : Chip :=
  { c with
    filt := { c.filt with
      w0 := w0Table c.modelActive (fcOf c.regs)
      divq := divqBoosted c.ext.boost (resOf c.regs) } }

/-! ## Routing (R328) -/

/-- Y[v]: voice 2 is silenced by OFF3 unless it is routed. -/
def routedInput (f : RegFile) (x : PerVoice Int) (v : VoiceId) : Int :=
  match v with
  | .v2 => if off3Of f && !filtVoice f .v2 then 0 else x.v2
  | .v0 => x.v0
  | .v1 => x.v1

/-- A summand, taken or left out. -/
def takeIf (b : Bool) (x : Int) : Int := if b then x else 0

/-- Vi, the sum of the routed inputs. -/
def filterPathSum (f : RegFile) (x : PerVoice Int) (xe : Int) : Int :=
  takeIf (filtVoice f .v0) (routedInput f x .v0) + takeIf (filtVoice f .v1) (routedInput f x .v1) +
    takeIf (filtVoice f .v2) (routedInput f x .v2) + takeIf (filtExt f) xe

/-- Vnf, the sum of the inputs that bypass the filter. -/
def bypassSum (f : RegFile) (x : PerVoice Int) (xe : Int) : Int :=
  takeIf (!filtVoice f .v0) (routedInput f x .v0) + takeIf (!filtVoice f .v1) (routedInput f x .v1) +
    takeIf (!filtVoice f .v2) (routedInput f x .v2) + takeIf (!filtExt f) xe

/-! ## Sub-steps (R329, R330) -/

/-- One sub-step of dt cycles with the filter input Vi: three statements in order, each reading what the earlier ones
wrote; products are exact before the floor shift (R330). -/
def subStep (vi : Int) (f : Filt) (dt : Nat) : Filt :=
  let vbp := wrap32 (f.vbp.toInt - asr ((f.w0.toNat : Int) * (dt : Int) * f.vhp.toInt) cutoffShift)
  let vlp := wrap32 (f.vlp.toInt - asr ((f.w0.toNat : Int) * (dt : Int) * vbp.toInt) cutoffShift)
  let vhp := wrap32 (asr (vbp.toInt * (f.divq.toNat : Int)) divqShift - vlp.toInt - vi)
  { f with vhp := vhp, vbp := vbp, vlp := vlp }

/-- The sub-steps of n cycles: full ones of SUBSTEP_MAX first, the remainder last (R329). -/
def subStepPlan (n : Nat) : List Nat :=
  List.replicate (n / subStepMax) subStepMax ++ (if n % subStepMax = 0 then [] else [n % subStepMax])

/-- The sub-steps of n cycles, all with the same input. -/
def runSubSteps (vi : Int) (n : Nat) (f : Filt) : Filt :=
  (subStepPlan n).foldl (subStep vi) f

/-! ## The clock (R327, R331) -/

/-- `clock(n, voice1, voice2, voice3, extIn)`: the input stage with its dither draws, routing, the sub-steps, and the
bypass latch, also when n = 0. -/
def filterClock (n : Nat) (vs : PerVoice Int) (ext : Int) (c : Chip) : Chip :=
  let x := scaledInputs c.ext c.dstate vs
  let xe := scaledExt ext
  let f := runSubSteps (filterPathSum c.regs x xe) n c.filt
  { c with
    filt := { f with vnf := wrap32 (bypassSum c.regs x xe) }
    dstate := ditherState c.ext.ditherEn c.dstate }

/-! ## The output (R332, R333) -/

/-- The taps MODE selects (R332). -/
def tapSum (mode : BitVec 3) (f : Filt) : Int :=
  takeIf (mode.getLsbD 0) f.vlp.toInt + takeIf (mode.getLsbD 1) f.vbp.toInt + takeIf (mode.getLsbD 2) f.vhp.toInt

/-- VO (R332). -/
def filterOutput (c : Chip) : Int :=
  (c.filt.vnf.toInt + tapSum (modeOf c.regs) c.filt + mixerDc c.modelActive) * ((volOf c.regs).toNat : Int)

/-- OUT16, the chip's output sample (44_voice_mixer.md R380). -/
def outSample (c : Chip) : Sample := conditioned (filterOutput c)

/-- The names of the filter modes (R333). -/
inductive FilterMode where
  | none
  | lp
  | bp
  | hp
  | notch
  | lpBp
  | bpHp
  | all
deriving DecidableEq, Repr

/-- The mode a MODE field names, bits HP BP LP (R333). -/
def filterMode (mode : BitVec 3) : FilterMode :=
  match mode.toNat with
  | 0 => .none
  | 1 => .lp
  | 2 => .bp
  | 3 => .lpBp
  | 4 => .hp
  | 5 => .notch
  | 6 => .bpHp
  | _ => .all

/-- The taps a named mode sums (R333). -/
def filterModeTaps (m : FilterMode) (f : Filt) : Int :=
  match m with
  | .none => 0
  | .lp => f.vlp.toInt
  | .bp => f.vbp.toInt
  | .hp => f.vhp.toInt
  | .notch => f.vlp.toInt + f.vhp.toInt
  | .lpBp => f.vlp.toInt + f.vbp.toInt
  | .bpHp => f.vbp.toInt + f.vhp.toInt
  | .all => f.vlp.toInt + f.vbp.toInt + f.vhp.toInt

end Sys2Proof.Machine
end

