-- ==== Sys2Proof/Machine/Extension.lean ====
section
/-! DEFINITION. The extension settings: SETEXT (45_chip_commands.md R450 to R455). -/

namespace Sys2Proof.Machine

/-- A new extension configuration, nothing else of the block (R455). -/
def setExt (e : Ext) (c : Chip) : Chip := { c with ext := e }

/-- SETEXT DITHER d (R450): DSTATE is not changed. -/
def execSetExtDither (val : BitVec 1) (s : State) : Host.Outcome State Fault Refusal :=
  .next (finish (setExt { s.chip.ext with ditherEn := ditherOperand val } s.chip) s)

/-- SETEXT GAIN v, g (R451). V = 3 has no voice: IllegalCommand with the command word (30_encoding.md R147; log 16). -/
def execSetExtGain (v : BitVec 2) (val : BitVec 9) (s : State) : Host.Outcome State Fault Refusal :=
  match voiceOperand v with
  | some voice => .next (finish (setExt { s.chip.ext with gain := s.chip.ext.gain.set voice val } s.chip) s)
  | none => .next (raiseIllegal (wordExt 1#4 v val) s)

/-- SETEXT BOOST b (R452): DIVQ is recomputed, the model is not copied. A value above 256 is IllegalCommand
(30_encoding.md R147; log 16). -/
def execSetExtBoost (val : BitVec 9) (s : State) : Host.Outcome State Fault Refusal :=
  if val.toNat ≤ 256 then
    .next (finish (recomputeDivq (setExt { s.chip.ext with boost := val } s.chip)) s)
  else .next (raiseIllegal (wordExt 2#4 0#2 val) s)

/-- SETEXT AM mask (R453). -/
def execSetExtAm (mask : BitVec 3) (s : State) : Host.Outcome State Fault Refusal :=
  .next (finish (setExt { s.chip.ext with amEn := amOperand mask } s.chip) s)

/-- RENDER_MODE <- m (R454). -/
def setRenderMode (m : RenderMode) (s : State) : Host.Outcome State Fault Refusal :=
  .next (finish (setExt { s.chip.ext with renderMode := m } s.chip) s)

/-- SETEXT RMODE NEAREST (R454). -/
def execSetExtRmodeNearest (s : State) : Host.Outcome State Fault Refusal :=
  setRenderMode .nearest s

/-- SETEXT RMODE LINEAR (R454): legal; later RSMP and RENDER are Unsupported (R443). -/
def execSetExtRmodeLinear (s : State) : Host.Outcome State Fault Refusal :=
  setRenderMode .linear s

/-- SETEXT RMODE BANDLIMITED (R454). -/
def execSetExtRmodeBandlimited (s : State) : Host.Outcome State Fault Refusal :=
  setRenderMode .bandlimited s

end Sys2Proof.Machine
end

