-- ==== Sys2Proof/Machine/Illegal.lean ====
section
/-! DEFINITION. The opcodes that are no command (60_exceptions.md R501, 30_encoding.md R148): each raises
IllegalCommand with its word. -/

namespace Sys2Proof.Machine

/-- Opcode 0x0 (R501). -/
def execIllegalOp0 (rest : BitVec 28) (s : State) : Host.Outcome State Fault Refusal :=
  .next (raiseIllegal (wordC 0x0#4 rest) s)

/-- Opcode 0xB (R501). -/
def execIllegalOpB (rest : BitVec 28) (s : State) : Host.Outcome State Fault Refusal :=
  .next (raiseIllegal (wordC 0xB#4 rest) s)

/-- Opcode 0xC (R501). -/
def execIllegalOpC (rest : BitVec 28) (s : State) : Host.Outcome State Fault Refusal :=
  .next (raiseIllegal (wordC 0xC#4 rest) s)

/-- Opcode 0xD (R501). -/
def execIllegalOpD (rest : BitVec 28) (s : State) : Host.Outcome State Fault Refusal :=
  .next (raiseIllegal (wordC 0xD#4 rest) s)

/-- Opcode 0xE (R501). -/
def execIllegalOpE (rest : BitVec 28) (s : State) : Host.Outcome State Fault Refusal :=
  .next (raiseIllegal (wordC 0xE#4 rest) s)

/-- Opcode 0xF (R501). -/
def execIllegalOpF (rest : BitVec 28) (s : State) : Host.Outcome State Fault Refusal :=
  .next (raiseIllegal (wordC 0xF#4 rest) s)

end Sys2Proof.Machine
end

