-- ==== Sys2Proof/Machine/ClockConverter.lean ====
section
/-! DEFINITION. clock_fractional_converter (40_clock_converter.md): the cycles of one host sample and the configuration
of the rates. -/

namespace Sys2Proof.Machine

/-- The count `cyclesForNextSample()` returns (R201). -/
def sampleCycles (k : ClockAcc) : Nat :=
  (k.resid.toNat + k.cRate.toNat) / k.sRate.toNat

/-- The residual it leaves (R201). -/
def residAfter (k : ClockAcc) : Nat :=
  (k.resid.toNat + k.cRate.toNat) % k.sRate.toNat

/-- The accumulator after one sample (R201). -/
def clockAdvance (k : ClockAcc) : ClockAcc :=
  { k with resid := BitVec.ofNat 32 (residAfter k) }

/-- The accumulator at two new rates, the residual cleared (R205). -/
def clockConfigured (host chip : Word) : ClockAcc :=
  { sRate := host, cRate := chip, resid := 0#32 }

end Sys2Proof.Machine
end

