-- ==== Sys2Proof/Machine/Lifecycle.lean ====
section
/-! DEFINITION. The lifecycle commands RESET, SETMODEL and SETRATE (45_chip_commands.md R420 to R422). -/

namespace Sys2Proof.Machine

/-- RESET (R420): the synthesis state of 10_state.md R90; the configuration and the emitted samples stay (R601). -/
def execReset (s : State) : Host.Outcome State Fault Refusal :=
  .next (finish s.chip.resetBody s)

/-- MODEL_PENDING <- MODEL, nothing else (R421). -/
def setModel (m : ChipModel) (c : Chip) : Chip := { c with modelPending := m }

/-- SETMODEL A (R421). -/
def execSetModelA (s : State) : Host.Outcome State Fault Refusal :=
  .next (finish (setModel .a s.chip) s)

/-- SETMODEL B (R421). -/
def execSetModelB (s : State) : Host.Outcome State Fault Refusal :=
  .next (finish (setModel .b s.chip) s)

/-- SETRATE host, chip (R422): ConfigError when either rate is 0, otherwise the rates and RESID <- 0
(40_clock_converter.md R205). -/
def execSetRate (host chip : Word) (s : State) : Host.Outcome State Fault Refusal :=
  if host = 0#32 ∨ chip = 0#32 then .next (raise (.configError host chip) s)
  else .next (finish { s.chip with clock := clockConfigured host chip } s)

end Sys2Proof.Machine
end

