-- ==== Sys2Proof/Machine/Read.lean ====
section
/-! DEFINITION. The reads RD and MON (45_chip_commands.md R431, R432). They change no state of the block. -/

namespace Sys2Proof.Machine

/-- RD addr (R431): the stored byte; 0x00 at an unmapped address. -/
def execRd (addr : Addr) (s : State) : Host.Outcome State Fault Refusal :=
  .next (answer ((readAddr s.chip.regs addr).setWidth 32) s)

/-- The result of MON WAVE (R432). -/
def monWave (v : VoiceId) (s : State) : Host.Outcome State Fault Refusal :=
  .next (answer ((chipWave s.chip v).setWidth 32) s)

/-- The result of MON ENV (R432, 42_envelope.md R285). -/
def monEnv (v : VoiceId) (s : State) : Host.Outcome State Fault Refusal :=
  .next (answer ((s.chip.env.get v).level.setWidth 32) s)

/-- MON WAVE0 (R432). -/
def execMonWave0 (s : State) : Host.Outcome State Fault Refusal :=
  monWave .v0 s

/-- MON WAVE1 (R432). -/
def execMonWave1 (s : State) : Host.Outcome State Fault Refusal :=
  monWave .v1 s

/-- MON WAVE2 (R432). -/
def execMonWave2 (s : State) : Host.Outcome State Fault Refusal :=
  monWave .v2 s

/-- MON ENV0 (R432). -/
def execMonEnv0 (s : State) : Host.Outcome State Fault Refusal :=
  monEnv .v0 s

/-- MON ENV1 (R432). -/
def execMonEnv1 (s : State) : Host.Outcome State Fault Refusal :=
  monEnv .v1 s

/-- MON ENV2 (R432). -/
def execMonEnv2 (s : State) : Host.Outcome State Fault Refusal :=
  monEnv .v2 s

/-- MON FC (R432): the register field. -/
def execMonFc (s : State) : Host.Outcome State Fault Refusal :=
  .next (answer ((fcOf s.chip.regs).setWidth 32) s)

/-- MON VOL (R432): the register field. -/
def execMonVol (s : State) : Host.Outcome State Fault Refusal :=
  .next (answer ((volOf s.chip.regs).setWidth 32) s)

end Sys2Proof.Machine
end

