-- ==== Sys2Proof/Machine/Envelope.lean ====
section
/-! DEFINITION. adsr_envelope_gen (42_envelope.md): the cycle step with its rate counter, exponential counter, level
step and zero latch, and the envelope half of the register writes. -/

namespace Sys2Proof.Machine

/-! ## The cycle step (R271 to R275) -/

/-- The rate counter counted up: after 2^15 - 1 it goes on at 1 (R271). -/
def rcNext (rc : BitVec 15) : BitVec 15 :=
  if rc = rateCounterMax then 1#15 else rc + 1#15

/-- The level step and the phase change (R273); `ad` is ATTACK_DECAY, `sr` SUSTAIN_RELEASE. -/
def levelStep (ad sr : Byte) (e : Env) : Env :=
  match e.phase with
  | .attack =>
    let level := if e.level = 255#8 then 255#8 else e.level + 1#8
    if level = 255#8 then { e with level := level, phase := .decay, rp := ratePeriod (dcyOf ad) }
    else { e with level := level }
  | .decay | .sustain =>
    let sl := sustainLevel (susOf sr)
    let level := if e.level = sl ∨ e.level = 0#8 then e.level else e.level - 1#8
    { e with level := level, phase := if level = sl then .sustain else .decay }
  | .release =>
    { e with level := if e.level = 0#8 then 0#8 else e.level - 1#8 }

/-- The exponential period and the zero latch, by the new level (R274). -/
def expUpdate (e : Env) : Env :=
  { e with
    ep := (expPeriodAt e.level).getD e.ep
    holdZero := e.holdZero || e.level == 0#8 }

/-- The end of R272: the exponential counter is cleared, and the level steps unless it is held at zero. -/
def expTick (ad sr : Byte) (e : Env) : Env :=
  let e' := { e with ec := 0#5 }
  if e.holdZero then e' else expUpdate (levelStep ad sr e')

/-- The exponential counter at a rate tick: bypassed in ATTACK (R272). -/
def rateTick (ad sr : Byte) (e : Env) : Env :=
  if e.phase ≠ .attack ∧ e.ec + 1#5 ≠ e.ep then { e with ec := e.ec + 1#5 }
  else expTick ad sr e

/-- One cycle of one envelope (R271, R275). -/
def envStep (ad sr : Byte) (e : Env) : Env :=
  if rcNext e.rc = e.rp then rateTick ad sr { e with rc := 0#15 }
  else { e with rc := rcNext e.rc }

/-- One cycle of the three envelopes, each independent of the others (R275). -/
def envCycle (r : PerVoice VoiceRegs) (e : PerVoice Env) : PerVoice Env :=
  PerVoice.ofFn fun v => envStep (r.get v).attackDecay (r.get v).sustainRelease (e.get v)

/-! ## The envelope half of the register writes (R280 to R282) -/

/-- The gate edges of a control write; no other field changes (R280). -/
def envWriteControl (old new ad sr : Byte) (e : Env) : Env :=
  if gateOnEdge old new then { e with phase := .attack, rp := ratePeriod (atkOf ad), holdZero := false }
  else if gateOffEdge old new then { e with phase := .release, rp := ratePeriod (relOf sr) }
  else e

/-- The rate update of an ATTACK_DECAY write (R281). -/
def envWriteAttackDecay (ad : Byte) (e : Env) : Env :=
  match e.phase with
  | .attack => { e with rp := ratePeriod (atkOf ad) }
  | .decay | .sustain => { e with rp := ratePeriod (dcyOf ad) }
  | .release => e

/-- The rate update of a SUSTAIN_RELEASE write (R282). -/
def envWriteSustainRelease (sr : Byte) (e : Env) : Env :=
  match e.phase with
  | .release => { e with rp := ratePeriod (relOf sr) }
  | .attack | .decay | .sustain => e

end Sys2Proof.Machine
end

