-- ==== Sys2Proof/Machine/Render.lean ====
section
/-! DEFINITION. Clocking and rendering: CLK, RSMP and RENDER (45_chip_commands.md R440 to R443). -/

namespace Sys2Proof.Machine

/-- One chip cycle: the oscillator step and the envelope step of all three voices, both from the start-of-cycle state
and writing disjoint state (R440). -/
def chipCycle (c : Chip) : Chip :=
  { c with
    osc := oscCycle syncSource c.regs.voice c.osc
    env := envCycle c.regs.voice c.env }

/-- The filter's half of `ChipClock`: the voice samples formed now, then one filter clock of n cycles (R440). -/
def filterHalf (n : Nat) (c : Chip) : Chip :=
  filterClock n (voiceSamples c) extIn c

/-- `ChipClock(n)`, for any natural number n (R440). -/
def chipClock (n : Nat) (c : Chip) : Chip :=
  filterHalf n (repeatTimes chipCycle n c)

/-- The body of RSMP on the block: the cycles of the next sample, then the clock (R441). The sample it emits is
`outSample` of the result. -/
def renderOne (c : Chip) : Chip :=
  chipClock (sampleCycles c.clock) { c with clock := clockAdvance c.clock }

/-- N times the body of RSMP: the block after them (R442). -/
def renderChip (n : Nat) (c : Chip) : Chip := repeatTimes renderOne n c

/-- The samples they emit, in order (R442). -/
def renderSamples : Nat → Chip → List Sample
  | 0, _ => []
  | n + 1, c => outSample (renderOne c) :: renderSamples n (renderOne c)

/-- Raise Unsupported unless RENDER_MODE is NEAREST (R441 to R443, 60_exceptions.md R504; log 3). -/
def renderGate (s : State) (t : State) : Host.Outcome State Fault Refusal :=
  if s.chip.ext.renderMode = .nearest then .next t else .next (raise (.unsupported s.chip.ext.renderMode) s)

/-- CLK n (R440): no output is emitted. -/
def execClk (n : BitVec 28) (s : State) : Host.Outcome State Fault Refusal :=
  .next (finish (chipClock (countOperand n) s.chip) s)

/-- RSMP (R441). -/
def execRsmp (s : State) : Host.Outcome State Fault Refusal :=
  renderGate s (finishEmitting (renderOne s.chip) [outSample (renderOne s.chip)] s)

/-- RENDER n (R442): one status, n samples. -/
def execRender (n : BitVec 28) (s : State) : Host.Outcome State Fault Refusal :=
  renderGate s
    (finishEmitting (renderChip (countOperand n) s.chip) (renderSamples (countOperand n) s.chip) s)

end Sys2Proof.Machine
end

