-- ==== Sys2Proof/Machine/Write.lean ====
section
/-! DEFINITION. WR, register by register (45_chip_commands.md R400 to R412): one shared register write and one meaning
for each row of the table. -/

namespace Sys2Proof.Machine

/-! ## The register write (R400) -/

/-- The oscillator half and the envelope half of a CONTROL write, both from the old byte, then the store (R407). -/
def writeControl (v : VoiceId) (d : Byte) (c : Chip) : Chip :=
  let r := c.regs.voice.get v
  storeReg (.control v) d
    (setEnv v (envWriteControl r.control d r.attackDecay r.sustainRelease (c.env.get v))
      (setOsc v (oscWriteControl r.control d (c.osc.get v)) c))

/-- The store, then the rate update (R408). -/
def writeAttackDecay (v : VoiceId) (d : Byte) (c : Chip) : Chip :=
  setEnv v (envWriteAttackDecay d (c.env.get v)) (storeReg (.attackDecay v) d c)

/-- The store, then the rate update (R409). -/
def writeSustainRelease (v : VoiceId) (d : Byte) (c : Chip) : Chip :=
  setEnv v (envWriteSustainRelease d (c.env.get v)) (storeReg (.sustainRelease v) d c)

/-- The per-register action, on the masked value (R403 to R412): a store alone for every register but three kinds. -/
def registerAction (r : RegName) (d : Byte) (c : Chip) : Chip :=
  match r with
  | .control v => writeControl v d c
  | .attackDecay v => writeAttackDecay v d c
  | .sustainRelease v => writeSustainRelease v d c
  | .freqLo v => storeReg (.freqLo v) d c
  | .freqHi v => storeReg (.freqHi v) d c
  | .pwLo v => storeReg (.pwLo v) d c
  | .pwHi v => storeReg (.pwHi v) d c
  | .fcLo => storeReg .fcLo d c
  | .fcHi => storeReg .fcHi d c
  | .resFilt => storeReg .resFilt d c
  | .modeVol => storeReg .modeVol d c

/-- MODEL_ACTIVE <- MODEL_PENDING (R402). -/
def copyModel (c : Chip) : Chip := { c with modelActive := c.modelPending }

/-- `RegWrite(a, d)` at a mapped address: mask, action, model copy, recompute (R400 to R402). -/
def regWrite (r : RegName) (d : Byte) (c : Chip) : Chip :=
  recompute (copyModel (registerAction r (d &&& regMask r) c))

/-- A WR to a mapped register: it always completes. -/
def writeCommand (r : RegName) (d : Byte) (s : State) : Host.Outcome State Fault Refusal :=
  .next (finish (regWrite r d s.chip) s)

/-- A WR to an unmapped address: status OK and nothing else, no model copy (20_memory.md R101). -/
def unmappedWrite (s : State) : Host.Outcome State Fault Refusal :=
  .next (finish s.chip s)

/-! ## The rows -/

/-- WR 0x00 (R403). -/
def execWrFreqLo0 (data : Byte) (s : State) : Host.Outcome State Fault Refusal :=
  writeCommand (.freqLo .v0) data s

/-- WR 0x01 (R404). -/
def execWrFreqHi0 (data : Byte) (s : State) : Host.Outcome State Fault Refusal :=
  writeCommand (.freqHi .v0) data s

/-- WR 0x02 (R405). -/
def execWrPwLo0 (data : Byte) (s : State) : Host.Outcome State Fault Refusal :=
  writeCommand (.pwLo .v0) data s

/-- WR 0x03 (R406). -/
def execWrPwHi0 (data : Byte) (s : State) : Host.Outcome State Fault Refusal :=
  writeCommand (.pwHi .v0) data s

/-- WR 0x04 (R407). -/
def execWrControl0 (data : Byte) (s : State) : Host.Outcome State Fault Refusal :=
  writeCommand (.control .v0) data s

/-- WR 0x05 (R408). -/
def execWrAttackDecay0 (data : Byte) (s : State) : Host.Outcome State Fault Refusal :=
  writeCommand (.attackDecay .v0) data s

/-- WR 0x06 (R409). -/
def execWrSustainRelease0 (data : Byte) (s : State) : Host.Outcome State Fault Refusal :=
  writeCommand (.sustainRelease .v0) data s

/-- WR 0x07 (R403). -/
def execWrFreqLo1 (data : Byte) (s : State) : Host.Outcome State Fault Refusal :=
  writeCommand (.freqLo .v1) data s

/-- WR 0x08 (R404). -/
def execWrFreqHi1 (data : Byte) (s : State) : Host.Outcome State Fault Refusal :=
  writeCommand (.freqHi .v1) data s

/-- WR 0x09 (R405). -/
def execWrPwLo1 (data : Byte) (s : State) : Host.Outcome State Fault Refusal :=
  writeCommand (.pwLo .v1) data s

/-- WR 0x0A (R406). -/
def execWrPwHi1 (data : Byte) (s : State) : Host.Outcome State Fault Refusal :=
  writeCommand (.pwHi .v1) data s

/-- WR 0x0B (R407). -/
def execWrControl1 (data : Byte) (s : State) : Host.Outcome State Fault Refusal :=
  writeCommand (.control .v1) data s

/-- WR 0x0C (R408). -/
def execWrAttackDecay1 (data : Byte) (s : State) : Host.Outcome State Fault Refusal :=
  writeCommand (.attackDecay .v1) data s

/-- WR 0x0D (R409). -/
def execWrSustainRelease1 (data : Byte) (s : State) : Host.Outcome State Fault Refusal :=
  writeCommand (.sustainRelease .v1) data s

/-- WR 0x0E (R403). -/
def execWrFreqLo2 (data : Byte) (s : State) : Host.Outcome State Fault Refusal :=
  writeCommand (.freqLo .v2) data s

/-- WR 0x0F (R404). -/
def execWrFreqHi2 (data : Byte) (s : State) : Host.Outcome State Fault Refusal :=
  writeCommand (.freqHi .v2) data s

/-- WR 0x10 (R405). -/
def execWrPwLo2 (data : Byte) (s : State) : Host.Outcome State Fault Refusal :=
  writeCommand (.pwLo .v2) data s

/-- WR 0x11 (R406). -/
def execWrPwHi2 (data : Byte) (s : State) : Host.Outcome State Fault Refusal :=
  writeCommand (.pwHi .v2) data s

/-- WR 0x12 (R407). -/
def execWrControl2 (data : Byte) (s : State) : Host.Outcome State Fault Refusal :=
  writeCommand (.control .v2) data s

/-- WR 0x13 (R408). -/
def execWrAttackDecay2 (data : Byte) (s : State) : Host.Outcome State Fault Refusal :=
  writeCommand (.attackDecay .v2) data s

/-- WR 0x14 (R409). -/
def execWrSustainRelease2 (data : Byte) (s : State) : Host.Outcome State Fault Refusal :=
  writeCommand (.sustainRelease .v2) data s

/-- WR 0x15 (R410). -/
def execWrFcLo (data : Byte) (s : State) : Host.Outcome State Fault Refusal :=
  writeCommand .fcLo data s

/-- WR 0x16 (R410). -/
def execWrFcHi (data : Byte) (s : State) : Host.Outcome State Fault Refusal :=
  writeCommand .fcHi data s

/-- WR 0x17 (R411). -/
def execWrResFilt (data : Byte) (s : State) : Host.Outcome State Fault Refusal :=
  writeCommand .resFilt data s

/-- WR 0x18 (R412). -/
def execWrModeVol (data : Byte) (s : State) : Host.Outcome State Fault Refusal :=
  writeCommand .modeVol data s

/-- WR 0x19 (R400, R101). -/
def execWrUnmapped19 (_data : Byte) (s : State) : Host.Outcome State Fault Refusal :=
  unmappedWrite s

/-- WR 0x1A (R400, R101). -/
def execWrUnmapped1A (_data : Byte) (s : State) : Host.Outcome State Fault Refusal :=
  unmappedWrite s

/-- WR 0x1B (R400, R101). -/
def execWrUnmapped1B (_data : Byte) (s : State) : Host.Outcome State Fault Refusal :=
  unmappedWrite s

/-- WR 0x1C (R400, R101). -/
def execWrUnmapped1C (_data : Byte) (s : State) : Host.Outcome State Fault Refusal :=
  unmappedWrite s

/-- WR 0x1D (R400, R101). -/
def execWrUnmapped1D (_data : Byte) (s : State) : Host.Outcome State Fault Refusal :=
  unmappedWrite s

/-- WR 0x1E (R400, R101). -/
def execWrUnmapped1E (_data : Byte) (s : State) : Host.Outcome State Fault Refusal :=
  unmappedWrite s

/-- WR 0x1F (R400, R101). -/
def execWrUnmapped1F (_data : Byte) (s : State) : Host.Outcome State Fault Refusal :=
  unmappedWrite s

end Sys2Proof.Machine
end

