-- ==== Sys2Proof/Machine/Dispatch.lean ====
section
/-! DEFINITION. exec: one arm for each constructor of Instr, each one call of its meaning. -/

namespace Sys2Proof.Machine

def exec (i : Instr) (s : State) : Host.Outcome State Fault Refusal :=
  match i with
  | .wrFreqLo0 data => Sys2Proof.Machine.execWrFreqLo0 data s
  | .wrFreqHi0 data => Sys2Proof.Machine.execWrFreqHi0 data s
  | .wrPwLo0 data => Sys2Proof.Machine.execWrPwLo0 data s
  | .wrPwHi0 data => Sys2Proof.Machine.execWrPwHi0 data s
  | .wrControl0 data => Sys2Proof.Machine.execWrControl0 data s
  | .wrAttackDecay0 data => Sys2Proof.Machine.execWrAttackDecay0 data s
  | .wrSustainRelease0 data => Sys2Proof.Machine.execWrSustainRelease0 data s
  | .wrFreqLo1 data => Sys2Proof.Machine.execWrFreqLo1 data s
  | .wrFreqHi1 data => Sys2Proof.Machine.execWrFreqHi1 data s
  | .wrPwLo1 data => Sys2Proof.Machine.execWrPwLo1 data s
  | .wrPwHi1 data => Sys2Proof.Machine.execWrPwHi1 data s
  | .wrControl1 data => Sys2Proof.Machine.execWrControl1 data s
  | .wrAttackDecay1 data => Sys2Proof.Machine.execWrAttackDecay1 data s
  | .wrSustainRelease1 data => Sys2Proof.Machine.execWrSustainRelease1 data s
  | .wrFreqLo2 data => Sys2Proof.Machine.execWrFreqLo2 data s
  | .wrFreqHi2 data => Sys2Proof.Machine.execWrFreqHi2 data s
  | .wrPwLo2 data => Sys2Proof.Machine.execWrPwLo2 data s
  | .wrPwHi2 data => Sys2Proof.Machine.execWrPwHi2 data s
  | .wrControl2 data => Sys2Proof.Machine.execWrControl2 data s
  | .wrAttackDecay2 data => Sys2Proof.Machine.execWrAttackDecay2 data s
  | .wrSustainRelease2 data => Sys2Proof.Machine.execWrSustainRelease2 data s
  | .wrFcLo data => Sys2Proof.Machine.execWrFcLo data s
  | .wrFcHi data => Sys2Proof.Machine.execWrFcHi data s
  | .wrResFilt data => Sys2Proof.Machine.execWrResFilt data s
  | .wrModeVol data => Sys2Proof.Machine.execWrModeVol data s
  | .wrUnmapped19 data => Sys2Proof.Machine.execWrUnmapped19 data s
  | .wrUnmapped1A data => Sys2Proof.Machine.execWrUnmapped1A data s
  | .wrUnmapped1B data => Sys2Proof.Machine.execWrUnmapped1B data s
  | .wrUnmapped1C data => Sys2Proof.Machine.execWrUnmapped1C data s
  | .wrUnmapped1D data => Sys2Proof.Machine.execWrUnmapped1D data s
  | .wrUnmapped1E data => Sys2Proof.Machine.execWrUnmapped1E data s
  | .wrUnmapped1F data => Sys2Proof.Machine.execWrUnmapped1F data s
  | .rd addr => Sys2Proof.Machine.execRd addr s
  | .reset => Sys2Proof.Machine.execReset s
  | .setModelA => Sys2Proof.Machine.execSetModelA s
  | .setModelB => Sys2Proof.Machine.execSetModelB s
  | .setRate host chip => Sys2Proof.Machine.execSetRate host chip s
  | .clk n => Sys2Proof.Machine.execClk n s
  | .rsmp => Sys2Proof.Machine.execRsmp s
  | .render n => Sys2Proof.Machine.execRender n s
  | .monWave0 => Sys2Proof.Machine.execMonWave0 s
  | .monWave1 => Sys2Proof.Machine.execMonWave1 s
  | .monWave2 => Sys2Proof.Machine.execMonWave2 s
  | .monEnv0 => Sys2Proof.Machine.execMonEnv0 s
  | .monEnv1 => Sys2Proof.Machine.execMonEnv1 s
  | .monEnv2 => Sys2Proof.Machine.execMonEnv2 s
  | .monFc => Sys2Proof.Machine.execMonFc s
  | .monVol => Sys2Proof.Machine.execMonVol s
  | .setExtDither val => Sys2Proof.Machine.execSetExtDither val s
  | .setExtGain v val => Sys2Proof.Machine.execSetExtGain v val s
  | .setExtBoost val => Sys2Proof.Machine.execSetExtBoost val s
  | .setExtAm mask => Sys2Proof.Machine.execSetExtAm mask s
  | .setExtRmodeNearest => Sys2Proof.Machine.execSetExtRmodeNearest s
  | .setExtRmodeLinear => Sys2Proof.Machine.execSetExtRmodeLinear s
  | .setExtRmodeBandlimited => Sys2Proof.Machine.execSetExtRmodeBandlimited s
  | .illegalOp0 rest => Sys2Proof.Machine.execIllegalOp0 rest s
  | .illegalOpB rest => Sys2Proof.Machine.execIllegalOpB rest s
  | .illegalOpC rest => Sys2Proof.Machine.execIllegalOpC rest s
  | .illegalOpD rest => Sys2Proof.Machine.execIllegalOpD rest s
  | .illegalOpE rest => Sys2Proof.Machine.execIllegalOpE rest s
  | .illegalOpF rest => Sys2Proof.Machine.execIllegalOpF rest s

end Sys2Proof.Machine
end

