-- ==== Sys2Proof/Machine/Fetch.lean ====
section
/-! DEFINITION. Taking a command from the port (30_encoding.md R144, R148). -/

namespace Sys2Proof.Machine

/-- The state with that many words taken from the port. -/
def takeWords (k : Nat) (s : State) : State := { s with commands := s.commands.drop k }

/-- The words at the port that are no command: all the words of a command of that opcode leave, and IllegalCommand is
raised with the first (60_exceptions.md R501; log 5). -/
def rejectWord (w : Word) (s : State) : State := raiseIllegal w (takeWords (commandLength w) s)

/-- The MON word whose selector names nothing: its word leaves, and IllegalCommand is raised with the selector
(45_chip_commands.md R432; log 18). -/
def rejectSelector (w : Word) (s : State) : State := raiseIllegalSelector w (takeWords (commandLength w) s)

/-- Decode the first command at the port, take its words and run it; raise IllegalCommand on words that are no command;
hold where there is no whole command. -/
def fetchAndRun (run : Instr → State → Host.Outcome State Fault Refusal) (s : State) :
    Host.Outcome State Fault Refusal :=
  match decode s.commands with
  | .ok (i, rest) => run i { s with commands := rest }
  | .error .noCommand => .next s
  | .error .awaitingOperands => .next s
  | .error (.reservedBits w) => .next (rejectWord w s)
  | .error (.badSelector w) => .next (rejectSelector w s)
  | .error (.badExtension w) => .next (rejectWord w s)

/-- Words placed at the front of the port, before any that wait there. -/
def placeCommand (ws : List Word) (s : State) : State := { s with commands := ws ++ s.commands }

end Sys2Proof.Machine
end

