-- ==== Sys2Proof/Machine/Step.lean ====
section
/-! DEFINITION. One step: the block takes the first command at the port and runs it (10_state.md R53,
20_memory.md R111). -/

namespace Sys2Proof.Machine

/-- A step. A command's words leave the port and the command runs. Words that are no command leave it too and raise
IllegalCommand (30_encoding.md R148). With nothing at the port (60_exceptions.md R516), or a SETRATE whose operand words
have not arrived (30_encoding.md R144), the block holds and nothing changes (log 4). -/
def step (s : State) : Host.Outcome State Fault Refusal :=
  fetchAndRun exec s

/-- The state with the table's words placed at the front of the command port (log 5). -/
def State.withFetchWord (s : State) (nbits w : Nat) : State :=
  placeCommand (tableWords nbits w) s

end Sys2Proof.Machine
end

