-- ==== Sys2Proof/Machine/Assembler.lean ====
section
/-! DEFINITION. The assembler's side of the command port (30_encoding.md R150, R151) and the frequency conversion it
uses (41_oscillator.md R250). -/

namespace Sys2Proof.Machine

/-! ## FREQ_REG -/

/-- FREQ_REG(f, C_RATE) for a frequency in hertz, f >= 0: rounded half up, saturated at 16 bits (R250). -/
def freqReg (f : Rat) (cRate : Nat) : BitVec 16 :=
  BitVec.ofNat 16 (min 0xFFFF (f * 2 ^ 24 / (cRate : Rat) + 1 / 2).floor.toNat)

/-! ## Pseudo-instructions (R151) -/

/-- A WR to a register, as the command of its address. -/
def wrTo (r : RegName) (d : Byte) : Instr := wrCommand (regAddr r) d

/-- FREQ v, f: low byte first. -/
def pseudoFreq (v : VoiceId) (f : BitVec 16) : List Instr :=
  [wrTo (.freqLo v) (f.extractLsb' 0 8), wrTo (.freqHi v) (f.extractLsb' 8 8)]

/-- PWIDTH v, p. -/
def pseudoPwidth (v : VoiceId) (p : BitVec 12) : List Instr :=
  [wrTo (.pwLo v) (p.extractLsb' 0 8), wrTo (.pwHi v) (0#4 ++ p.extractLsb' 8 4)]

/-- CTRL v, c. -/
def pseudoCtrl (v : VoiceId) (c : Byte) : List Instr := [wrTo (.control v) c]

/-- ADSR v, a, d, s, r. -/
def pseudoAdsr (v : VoiceId) (a d s r : BitVec 4) : List Instr :=
  [wrTo (.attackDecay v) (a ++ d), wrTo (.sustainRelease v) (s ++ r)]

/-- CUTOFF fc. -/
def pseudoCutoff (fc : BitVec 11) : List Instr :=
  [wrTo .fcLo (0#5 ++ fc.extractLsb' 0 3), wrTo .fcHi (fc.extractLsb' 3 8)]

/-- RESFILT res, filt. -/
def pseudoResFilt (res filt : BitVec 4) : List Instr := [wrTo .resFilt (res ++ filt)]

/-- MODEVOL off3, mode, vol. -/
def pseudoModeVol (off3 : BitVec 1) (mode : BitVec 3) (vol : BitVec 4) : List Instr :=
  [wrTo .modeVol (off3 ++ mode ++ vol)]

/-- NOTE v, hz, at the current C_RATE. -/
def pseudoNote (v : VoiceId) (hz : Rat) (cRate : Nat) : List Instr := pseudoFreq v (freqReg hz cRate)

/-- GATEON v, sel. -/
def pseudoGateOn (v : VoiceId) (sel : BitVec 4) : List Instr := pseudoCtrl v (sel ++ 1#4)

/-- GATEOFF v, sel. -/
def pseudoGateOff (v : VoiceId) (sel : BitVec 4) : List Instr := pseudoCtrl v (sel ++ 0#4)

/-! ## Assembler text (R150) -/

/-- The text of a WR. -/
def asmWr (a : Nat) (d : Byte) : String := "WR " ++ toString a ++ ", " ++ toString d.toNat

/-- The line that assembles to a command, its numbers in decimal; a word that is no command has none. -/
def assemblerText (i : Instr) : Option String :=
  match i with
  | .wrFreqLo0 data => some (asmWr 0x00 data)
  | .wrFreqHi0 data => some (asmWr 0x01 data)
  | .wrPwLo0 data => some (asmWr 0x02 data)
  | .wrPwHi0 data => some (asmWr 0x03 data)
  | .wrControl0 data => some (asmWr 0x04 data)
  | .wrAttackDecay0 data => some (asmWr 0x05 data)
  | .wrSustainRelease0 data => some (asmWr 0x06 data)
  | .wrFreqLo1 data => some (asmWr 0x07 data)
  | .wrFreqHi1 data => some (asmWr 0x08 data)
  | .wrPwLo1 data => some (asmWr 0x09 data)
  | .wrPwHi1 data => some (asmWr 0x0A data)
  | .wrControl1 data => some (asmWr 0x0B data)
  | .wrAttackDecay1 data => some (asmWr 0x0C data)
  | .wrSustainRelease1 data => some (asmWr 0x0D data)
  | .wrFreqLo2 data => some (asmWr 0x0E data)
  | .wrFreqHi2 data => some (asmWr 0x0F data)
  | .wrPwLo2 data => some (asmWr 0x10 data)
  | .wrPwHi2 data => some (asmWr 0x11 data)
  | .wrControl2 data => some (asmWr 0x12 data)
  | .wrAttackDecay2 data => some (asmWr 0x13 data)
  | .wrSustainRelease2 data => some (asmWr 0x14 data)
  | .wrFcLo data => some (asmWr 0x15 data)
  | .wrFcHi data => some (asmWr 0x16 data)
  | .wrResFilt data => some (asmWr 0x17 data)
  | .wrModeVol data => some (asmWr 0x18 data)
  | .wrUnmapped19 data => some (asmWr 0x19 data)
  | .wrUnmapped1A data => some (asmWr 0x1A data)
  | .wrUnmapped1B data => some (asmWr 0x1B data)
  | .wrUnmapped1C data => some (asmWr 0x1C data)
  | .wrUnmapped1D data => some (asmWr 0x1D data)
  | .wrUnmapped1E data => some (asmWr 0x1E data)
  | .wrUnmapped1F data => some (asmWr 0x1F data)
  | .rd addr => some ("RD " ++ toString addr.toNat)
  | .reset => some "RESET"
  | .setModelA => some "SETMODEL A"
  | .setModelB => some "SETMODEL B"
  | .setRate host chip => some ("SETRATE " ++ toString host.toNat ++ ", " ++ toString chip.toNat)
  | .clk n => some ("CLK " ++ toString n.toNat)
  | .rsmp => some "RSMP"
  | .render n => some ("RENDER " ++ toString n.toNat)
  | .monWave0 => some "MON WAVE0"
  | .monWave1 => some "MON WAVE1"
  | .monWave2 => some "MON WAVE2"
  | .monEnv0 => some "MON ENV0"
  | .monEnv1 => some "MON ENV1"
  | .monEnv2 => some "MON ENV2"
  | .monFc => some "MON FC"
  | .monVol => some "MON VOL"
  | .setExtDither val => some ("SETEXT DITHER " ++ toString val.toNat)
  | .setExtGain v val => some ("SETEXT GAIN " ++ toString v.toNat ++ ", " ++ toString val.toNat)
  | .setExtBoost val => some ("SETEXT BOOST " ++ toString val.toNat)
  | .setExtAm mask => some ("SETEXT AM " ++ toString mask.toNat)
  | .setExtRmodeNearest => some "SETEXT RMODE NEAREST"
  | .setExtRmodeLinear => some "SETEXT RMODE LINEAR"
  | .setExtRmodeBandlimited => some "SETEXT RMODE BANDLIMITED"
  | .illegalOp0 _ => none
  | .illegalOpB _ => none
  | .illegalOpC _ => none
  | .illegalOpD _ => none
  | .illegalOpE _ => none
  | .illegalOpF _ => none

end Sys2Proof.Machine
end

