-- ==== Sys2Proof/Safety.lean ====
section
/-! DEFINITION. What claims are stated in: a clean run (92_eei_decisions.md D44), the configuration RESET keeps, and the
invariant of the block's state. -/

namespace Sys2Proof.Machine

/-! ## Clean runs -/

/-- No command so far ended in a fault or a refusal: the sticky mark a model keeps (60_exceptions.md R502, D44), read
from the responses. -/
def State.clean (s : State) : Bool := s.results.all (fun r => r.status == 0)

/-- The host waits for no sample the model could not form: no RSMP or RENDER so far met an open render variant
(60_exceptions.md R504: to be treated as refused; log 3). -/
def State.noRefusedRender (s : State) : Bool := s.results.all (fun r => r.status != 3)

/-! ## What RESET keeps -/

/-- The configuration of a block (70_reset_and_hazards.md R601). -/
structure Configuration where
  sRate : Word
  cRate : Word
  modelPending : ChipModel
  ext : Ext
deriving DecidableEq, Repr

/-- The configuration a block holds. -/
def configurationOf (c : Chip) : Configuration :=
  { sRate := c.clock.sRate, cRate := c.clock.cRate, modelPending := c.modelPending, ext := c.ext }

/-! ## The invariant -/

/-- The rate nibble that is active in a phase (42_envelope.md R281). -/
def activeNibble (p : Phase) (ad sr : Byte) : BitVec 4 :=
  match p with
  | .attack => atkOf ad
  | .decay => dcyOf ad
  | .sustain => dcyOf ad
  | .release => relOf sr

/-- What a voice's registers and its oscillator keep: TEST holds both registers at 0, and the noise register is 0 under
TEST only (41_oscillator.md R228, R232). -/
structure OscInv (r : VoiceRegs) (o : Osc) : Prop where
  test_holds : testBit r.control = true → o.acc = 0#24 ∧ o.lfsr = 0#23
  noise_alive : testBit r.control = false → o.lfsr ≠ 0#23

/-- What a voice's registers and its envelope keep (42_envelope.md R272, R274, R280 to R282, R287). -/
structure EnvInv (r : VoiceRegs) (e : Env) : Prop where
  ep_legal : e.ep ∈ [1#5, 2#5, 4#5, 8#5, 16#5, 30#5]
  ec_below : e.ec.toNat < e.ep.toNat
  held_is_zero : e.holdZero = true → e.level = 0#8
  rp_active : e.rp = ratePeriod (activeNibble e.phase r.attackDecay r.sustainRelease)
  gate_phase : gateBit r.control = false ↔ e.phase = .release

/-- What the registers and the coefficients keep: unused bits stored as 0 (10_state.md R51), W0 and DIVQ equal to their
functions of the registers (43_filter.md R326), a legal BOOST (R61). -/
structure FilterInv (c : Chip) : Prop where
  pw_hi_masked : ∀ v, (c.regs.voice.get v).pwHi &&& 0xF0#8 = 0#8
  fc_lo_masked : c.regs.fcLo &&& 0xF8#8 = 0#8
  w0_current : c.filt.w0 = w0Table c.modelActive (fcOf c.regs)
  divq_current : c.filt.divq = divqBoosted c.ext.boost (resOf c.regs)
  boost_legal : c.ext.boost.toNat ≤ 256

/-- What the clock accumulator and the dither generator keep (10_state.md R63, 44_voice_mixer.md R373). -/
structure ClockInv (c : Chip) : Prop where
  s_rate_nonzero : c.clock.sRate ≠ 0#32
  c_rate_nonzero : c.clock.cRate ≠ 0#32
  resid_below : c.clock.resid.toNat < c.clock.sRate.toNat
  dstate_nonzero : c.dstate ≠ 0#32

/-- The invariant of the block. -/
structure ChipInv (c : Chip) : Prop where
  osc : ∀ v, OscInv (c.regs.voice.get v) (c.osc.get v)
  env : ∀ v, EnvInv (c.regs.voice.get v) (c.env.get v)
  filter : FilterInv c
  clock : ClockInv c

end Sys2Proof.Machine
end

