-- ==== Sys2Proof/Certificates/Slice0/Obligations.lean ====
section
/-! DEFINITION. The statements for the provers, from the numbered rules of spec/, and the few words they are said in. -/

namespace Sys2Proof.Claims

open Sys2Proof.Machine

/-! ## Commands and words -/

/-- The bits of a word from `lo` on, `len` of them, as a number (00_scope.md R9). -/
def field (w : Word) (lo len : Nat) : Nat := w.toNat / 2 ^ lo % 2 ^ len

/-- The first word of a command's encoding. -/
def wordOf (i : Instr) : Word := (encode i).headD 0#32

/-- The opcode of a command (30_encoding.md R141). -/
def opcode (i : Instr) : Nat := field (wordOf i) 28 4

/-- CLK, RSMP and RENDER: the commands that run cycles (70_reset_and_hazards.md R620). -/
def isClocking (i : Instr) : Prop := opcode i = 0x6 ∨ opcode i = 0x7 ∨ opcode i = 0x8

/-- A WR to an address that holds a register (20_memory.md R100). -/
def isMappedWrite (i : Instr) : Prop := opcode i = 0x1 ∧ field (wordOf i) 8 5 ≤ 0x18

/-- A WR to a CONTROL register (30_encoding.md R135). -/
def isControlWrite (i : Instr) : Prop :=
  opcode i = 0x1 ∧ (field (wordOf i) 8 5 = 0x04 ∨ field (wordOf i) 8 5 = 0x0B ∨ field (wordOf i) 8 5 = 0x12)

/-- The command words 30_encoding.md R148 calls illegal, clause by clause. -/
def IllegalWord (w : Word) : Prop :=
  -- (a) no command
  field w 28 4 = 0x0 ∨ 0xB ≤ field w 28 4 ∨
  -- (b) a reserved bit of R142
  (field w 28 4 = 0x1 ∧ field w 13 15 ≠ 0) ∨
  (field w 28 4 = 0x2 ∧ (field w 13 15 ≠ 0 ∨ field w 0 8 ≠ 0)) ∨
  ((field w 28 4 = 0x3 ∨ field w 28 4 = 0x5 ∨ field w 28 4 = 0x7) ∧ field w 0 28 ≠ 0) ∨
  (field w 28 4 = 0x4 ∧ field w 1 27 ≠ 0) ∨
  (field w 28 4 = 0x9 ∧ field w 4 24 ≠ 0) ∨
  (field w 28 4 = 0xA ∧ (field w 18 6 ≠ 0 ∨ field w 9 7 ≠ 0)) ∨
  -- (c) a selector of R146
  (field w 28 4 = 0x9 ∧ (field w 0 4 = 3 ∨ field w 0 4 = 7 ∨ 10 ≤ field w 0 4)) ∨
  -- (d) a sub-operation, voice or value of R147
  (field w 28 4 = 0xA ∧
    (5 ≤ field w 24 4 ∨
      (field w 24 4 = 0 ∧ (field w 16 2 ≠ 0 ∨ field w 1 8 ≠ 0)) ∨
      (field w 24 4 = 1 ∧ field w 16 2 = 3) ∨
      (field w 24 4 = 2 ∧ (field w 16 2 ≠ 0 ∨ 256 < field w 0 9)) ∨
      (field w 24 4 = 3 ∧ (field w 16 2 ≠ 0 ∨ field w 3 6 ≠ 0)) ∨
      (field w 24 4 = 4 ∧ (field w 16 2 ≠ 0 ∨ field w 2 7 ≠ 0 ∨ field w 0 2 = 3))))

/-- The MON words whose selector names nothing (45_chip_commands.md R432, "other"; 30_encoding.md R148 (c)). -/
def BadSelector (w : Word) : Prop :=
  field w 28 4 = 0x9 ∧ field w 4 24 = 0 ∧ (field w 0 4 = 3 ∨ field w 0 4 = 7 ∨ 10 ≤ field w 0 4)

/-- The commands of a list, one after another. -/
def execAll : List Instr → State → Host.Outcome State Fault Refusal
  | [], s => .next s
  | i :: is, s =>
    match exec i s with
    | .next t => execAll is t
    | .fault e => .fault e
    | .refused e => .refused e

/-! ## Registers -/

/-- The seven bytes of one voice, in address order (20_memory.md R102). -/
def voiceBytes (r : VoiceRegs) : List Byte :=
  [r.freqLo, r.freqHi, r.pwLo, r.pwHi, r.control, r.attackDecay, r.sustainRelease]

/-- The 25 bytes reg[0x00] to reg[0x18] (20_memory.md R102). -/
def registerBytes (f : RegFile) : List Byte :=
  voiceBytes f.voice.v0 ++ voiceBytes f.voice.v1 ++ voiceBytes f.voice.v2 ++ [f.fcLo, f.fcHi, f.resFilt, f.modeVol]

/-- MASK(a) (45_chip_commands.md R401). -/
def writeMask (a : Nat) : Byte :=
  if a = 0x03 ∨ a = 0x0A ∨ a = 0x11 then 0x0F#8 else if a = 0x15 then 0x07#8 else 0xFF#8

/-- The registers of a voice. -/
def voiceRegs (s : State) (v : VoiceId) : VoiceRegs := s.chip.regs.voice.get v

/-- The register file with one voice's registers replaced. -/
def withVoice (s : State) (v : VoiceId) (r : VoiceRegs) : RegFile :=
  { s.chip.regs with voice := s.chip.regs.voice.set v r }

/-! ## What a command leaves -/

/-- The state with status OK returned, nothing else changed. That responses are kept as a list is log 6. -/
def done (s : State) : State := { s with results := s.results ++ [.ok] }

/-- The state with status OK and a result returned, nothing else changed. -/
def doneWith (r : Word) (s : State) : State := { s with results := s.results ++ [.okResult r] }

/-- What a WR to a mapped address leaves, given the registers, oscillators and envelopes it leaves: the active model,
W0 and DIVQ follow them (45_chip_commands.md R400, R402; 43_filter.md R326), and all the rest stays. -/
def afterWrite (s : State) (f : RegFile) (o : PerVoice Osc) (e : PerVoice Env) : State :=
  { s with
    chip := { s.chip with
      regs := f, osc := o, env := e, modelActive := s.chip.modelPending
      filt := { s.chip.filt with
        w0 := w0Table s.chip.modelPending (f.fcHi ++ f.fcLo.extractLsb' 0 3)
        divq := divqBoosted s.chip.ext.boost (f.resFilt.extractLsb' 4 4) } }
    results := s.results ++ [.ok] }

/-- An oscillator after a CONTROL write of `d` over `old` (41_oscillator.md R232). -/
def oscAfterControl (old d : Byte) (o : Osc) : Osc :=
  if d.getLsbD 3 = true then { acc := 0#24, lfsr := 0#23 }
  else if old.getLsbD 3 = true then { o with lfsr := lfsrSeed }
  else o

/-- An envelope after a CONTROL write of `d` over the old byte of `r` (42_envelope.md R280). -/
def envAfterControl (r : VoiceRegs) (d : Byte) (e : Env) : Env :=
  if r.control.getLsbD 0 = false ∧ d.getLsbD 0 = true then
    { e with phase := .attack, rp := ratePeriod (r.attackDecay.extractLsb' 4 4), holdZero := false }
  else if r.control.getLsbD 0 = true ∧ d.getLsbD 0 = false then
    { e with phase := .release, rp := ratePeriod (r.sustainRelease.extractLsb' 0 4) }
  else e

/-- What a CONTROL write of `d` to voice v leaves (45_chip_commands.md R407). -/
def afterControl (s : State) (v : VoiceId) (d : Byte) : State :=
  afterWrite s (withVoice s v { voiceRegs s v with control := d })
    (s.chip.osc.set v (oscAfterControl (voiceRegs s v).control d (s.chip.osc.get v)))
    (s.chip.env.set v (envAfterControl (voiceRegs s v) d (s.chip.env.get v)))

/-- An envelope after an ATTACK_DECAY write of `d` (42_envelope.md R281). -/
def envAfterAttackDecay (d : Byte) (e : Env) : Env :=
  if e.phase = .attack then { e with rp := ratePeriod (d.extractLsb' 4 4) }
  else if e.phase = .decay ∨ e.phase = .sustain then { e with rp := ratePeriod (d.extractLsb' 0 4) }
  else e

/-- An envelope after a SUSTAIN_RELEASE write of `d` (42_envelope.md R282). -/
def envAfterSustainRelease (d : Byte) (e : Env) : Env :=
  if e.phase = .release then { e with rp := ratePeriod (d.extractLsb' 0 4) } else e

/-- What an ATTACK_DECAY write to voice v leaves (45_chip_commands.md R408). -/
def afterAttackDecay (s : State) (v : VoiceId) (d : Byte) : State :=
  afterWrite s (withVoice s v { voiceRegs s v with attackDecay := d }) s.chip.osc
    (s.chip.env.set v (envAfterAttackDecay d (s.chip.env.get v)))

/-- What a SUSTAIN_RELEASE write to voice v leaves (45_chip_commands.md R409). -/
def afterSustainRelease (s : State) (v : VoiceId) (d : Byte) : State :=
  afterWrite s (withVoice s v { voiceRegs s v with sustainRelease := d }) s.chip.osc
    (s.chip.env.set v (envAfterSustainRelease d (s.chip.env.get v)))

/-! ## Units, in numbers -/

/-- The voice a voice is synced, ring-modulated and amplitude-modulated by (41_oscillator.md R226). -/
def voiceBefore (v : VoiceId) : VoiceId :=
  match v with
  | .v0 => .v2
  | .v1 => .v0
  | .v2 => .v1

/-- SUM[v] as a number (41_oscillator.md R221). -/
def oscSumNat (r : VoiceRegs) (o : Osc) : Nat :=
  if r.control.getLsbD 3 = true then o.acc.toNat else o.acc.toNat + (256 * r.freqHi.toNat + r.freqLo.toNat)

/-- EV[v], the accumulator's wrap (41_oscillator.md R225). -/
def syncWrap (r : VoiceRegs) (o : Osc) : Prop := r.control.getLsbD 3 = false ∧ 2 ^ 24 ≤ oscSumNat r o

/-- WAVE of a voice in numbers, by its selector (41_oscillator.md R240 to R246). -/
def waveNat (m : ChipModel) (r : VoiceRegs) (sourceTop : Bool) (o : Osc) : Nat :=
  match r.control.toNat / 16 with
  | 1 =>
    if (o.acc.getLsbD 23 ^^ (r.control.getLsbD 2 && sourceTop)) = true then 0xFFF - o.acc.toNat / 2 ^ 11 % 2 ^ 12
    else o.acc.toNat / 2 ^ 11 % 2 ^ 12
  | 2 => o.acc.toNat / 2 ^ 12
  | 3 => (Config.cwTable m .triSaw (o.acc.extractLsb' 12 12)).toNat
  | 4 =>
    if r.control.getLsbD 3 = true ∨ 256 * (r.pwHi.toNat % 16) + r.pwLo.toNat ≤ o.acc.toNat / 2 ^ 12 then 0xFFF else 0
  | 5 => (Config.cwTable m .triPulse (o.acc.extractLsb' 12 12)).toNat
  | 6 => (Config.cwTable m .sawPulse (o.acc.extractLsb' 12 12)).toNat
  | 7 => (Config.cwTable m .triSawPulse (o.acc.extractLsb' 12 12)).toNat
  | 8 => o.lfsr.toNat / 2 ^ 11
  | _ => 0

/-- The rate counter counted up (42_envelope.md R271). -/
def rateCountNat (e : Env) : Nat := if e.rc.toNat + 1 = 2 ^ 15 then 1 else e.rc.toNat + 1

/-- The cycle is a rate tick (42_envelope.md R271). -/
def isRateTick (e : Env) : Prop := rateCountNat e = e.rp.toNat

/-- The rate counter after k cycles with no tick, from rc (42_envelope.md R271, R276). -/
def countedUp (rc k : Nat) : Nat := if rc + k < 2 ^ 15 then rc + k else rc + k - (2 ^ 15 - 1)

/-- A rate tick goes on to the end of R272: in ATTACK always, otherwise when the exponential counter is full. -/
def passesExponential (e : Env) : Prop := e.phase = .attack ∨ e.ec + 1#5 = e.ep

/-- EP after a level step to a level (42_envelope.md R274). -/
def periodAfter (level : BitVec 8) (old : BitVec 5) : BitVec 5 :=
  if level = 0xFF#8 then 1#5 else if level = 0x5D#8 then 2#5 else if level = 0x36#8 then 4#5
  else if level = 0x1A#8 then 8#5 else if level = 0x0E#8 then 16#5 else if level = 0x06#8 then 30#5
  else if level = 0x00#8 then 1#5 else old

/-- The level step from e to e' (42_envelope.md R273, R274), with the rate counter and the exponential counter
cleared. -/
def LevelStep (r : VoiceRegs) (e e' : Env) : Prop :=
  e'.rc = 0#15 ∧ e'.ec = 0#5 ∧ e'.ep = periodAfter e'.level e.ep ∧ (e'.holdZero = true ↔ e'.level = 0#8) ∧
    (e.phase = .attack →
      e'.level.toNat = min (e.level.toNat + 1) 255 ∧
        (e'.level = 255#8 → e'.phase = .decay ∧ e'.rp = ratePeriod (r.attackDecay.extractLsb' 0 4)) ∧
        (e'.level ≠ 255#8 → e'.phase = .attack ∧ e'.rp = e.rp)) ∧
    (e.phase = .decay ∨ e.phase = .sustain →
      e'.rp = e.rp ∧
        (e.level.toNat = 17 * (r.sustainRelease.toNat / 16) → e'.level = e.level) ∧
        (e.level.toNat ≠ 17 * (r.sustainRelease.toNat / 16) → e'.level.toNat = e.level.toNat - 1) ∧
        (e'.level.toNat = 17 * (r.sustainRelease.toNat / 16) → e'.phase = .sustain) ∧
        (e'.level.toNat ≠ 17 * (r.sustainRelease.toNat / 16) → e'.phase = .decay)) ∧
    (e.phase = .release → e'.level.toNat = e.level.toNat - 1 ∧ e'.phase = .release ∧ e'.rp = e.rp)

/-- One draw of the dither generator (44_voice_mixer.md R373). -/
def ditherDraw (x : Nat) : Nat :=
  let x1 := (x ^^^ (x * 2 ^ 13)) % 2 ^ 32
  let x2 := x1 ^^^ (x1 / 2 ^ 17)
  (x2 ^^^ (x2 * 2 ^ 5)) % 2 ^ 32

/-- DITH[v] of a filter clock call from DSTATE before it: voice v takes draw v + 1 (44_voice_mixer.md R373). -/
def ditherNat (on : Bool) (x : Nat) (v : VoiceId) : Nat :=
  if on then
    match v with
    | .v0 => ditherDraw x / 2 ^ 25
    | .v1 => ditherDraw (ditherDraw x) / 2 ^ 25
    | .v2 => ditherDraw (ditherDraw (ditherDraw x)) / 2 ^ 25
  else 0

/-- VO (43_filter.md R332). -/
def outputInt (c : Chip) : Int :=
  (c.filt.vnf.toInt + (if c.regs.modeVol.getLsbD 4 = true then c.filt.vlp.toInt else 0) +
    (if c.regs.modeVol.getLsbD 5 = true then c.filt.vbp.toInt else 0) +
    (if c.regs.modeVol.getLsbD 6 = true then c.filt.vhp.toInt else 0) +
    (if c.modelActive = .a then -454 else 0)) * ((c.regs.modeVol.toNat % 16 : Nat) : Int)

/-- OUT16 of a VO (44_voice_mixer.md R380). -/
def shaped (vo : Int) : Int := max (-32768) (min 32767 (vo / 8))

/-- The total of the cycle counts of the first n samples (40_clock_converter.md R202). -/
def totalCycles : Nat → ClockAcc → Nat
  | 0, _ => 0
  | n + 1, k => sampleCycles k + totalCycles n (clockAdvance k)

/-- The accumulator after n samples. -/
def clockAfter (n : Nat) (k : ClockAcc) : ClockAcc := repeatTimes clockAdvance n k

/-- The chip after n cycles of its oscillators and envelopes (45_chip_commands.md R440, the first loop). -/
def afterCycles (n : Nat) (c : Chip) : Chip :=
  repeatTimes
    (fun c => { c with osc := oscCycle syncSource c.regs.voice c.osc, env := envCycle c.regs.voice c.env }) n c

/-- ChipClock(n) (45_chip_commands.md R440): the cycles, then the voice samples, then one filter clock with EXT = 0. -/
def afterClock (n : Nat) (c : Chip) : Chip :=
  filterClock n (voiceSamples (afterCycles n c)) 0 (afterCycles n c)

/-- The slope of the straight line from p to q. -/
def secant (p q : Nat × Nat) : ℚ := ((q.2 : ℚ) - (p.2 : ℚ)) / ((q.1 : ℚ) - (p.1 : ℚ))

/-- k1 of the segment from p1 to p2: the neighbours' secant, one-sided where p0 repeats x1, the straight line's where
both ends repeat (43_filter.md R321). -/
def startSlope (p0 p1 p2 p3 : Nat × Nat) : ℚ :=
  if p0.1 ≠ p1.1 then secant p0 p2
  else if p2.1 = p3.1 then secant p1 p2
  else (3 * secant p1 p2 - secant p1 p3) / 2

/-- k2 of the segment from p1 to p2, the mirror image of k1 (43_filter.md R321). -/
def endSlope (p0 p1 p2 p3 : Nat × Nat) : ℚ :=
  if p2.1 ≠ p3.1 then secant p1 p3
  else if p0.1 = p1.1 then secant p1 p2
  else (3 * secant p1 p2 - secant p0 p2) / 2

/-- The cubic through p and q with end slopes k1 and k2, at x, in Hermite form: no coefficient of 43_filter.md R321 is
formed. -/
def hermite (p q : Nat × Nat) (k1 k2 x : ℚ) : ℚ :=
  let w : ℚ := (q.1 : ℚ) - (p.1 : ℚ)
  let t : ℚ := (x - (p.1 : ℚ)) / w
  (1 + 2 * t) * (1 - t) ^ 2 * (p.2 : ℚ) + t * (1 - t) ^ 2 * w * k1 +
    t ^ 2 * (3 - 2 * t) * (q.2 : ℚ) - t ^ 2 * (1 - t) * w * k2

/-- The chip after one rendered sample (45_chip_commands.md R441): the count is taken, then clocked. -/
def afterSample (c : Chip) : Chip :=
  afterClock ((c.clock.resid.toNat + c.clock.cRate.toNat) / c.clock.sRate.toNat)
    { c with
      clock := { c.clock with
        resid := BitVec.ofNat 32 ((c.clock.resid.toNat + c.clock.cRate.toNat) % c.clock.sRate.toNat) } }

/-- The filter taps and the bypass latch (43_filter.md R335). -/
def integrators (c : Chip) : BitVec 32 × BitVec 32 × BitVec 32 × BitVec 32 :=
  (c.filt.vhp, c.filt.vbp, c.filt.vlp, c.filt.vnf)

end Sys2Proof.Claims

open Sys2Proof Sys2Proof.Machine Sys2Proof.Claims

/-! ## The command port -/

/-- O1. Words the spec writes out decode to the command it names (30_encoding.md R150; the examples of
45_chip_commands.md R400, R420 to R422, R450 to R454, and the word formats of R142). -/
def Obligations.DecodesWordsOfTheSpec : Prop :=
  decode [0x1000180F#32] = .ok (.wrModeVol 0x0F#8, []) ∧
  decode [0x10000421#32] = .ok (.wrControl0 0x21#8, []) ∧
  decode [0x20001800#32] = .ok (.rd 0x18#5, []) ∧
  decode [0x30000000#32] = .ok (.reset, []) ∧
  decode [0x40000000#32] = .ok (.setModelA, []) ∧
  decode [0x40000001#32] = .ok (.setModelB, []) ∧
  decode [0x50000000#32, 0x0000BB80#32, 0x000F08A0#32] = .ok (.setRate 48000#32 985248#32, []) ∧
  decode [0x600003E8#32] = .ok (.clk 1000#28, []) ∧
  decode [0x70000000#32] = .ok (.rsmp, []) ∧
  decode [0x80000004#32] = .ok (.render 4#28, []) ∧
  decode [0x90000006#32] = .ok (.monEnv2, []) ∧
  decode [0xA0000001#32] = .ok (.setExtDither 1#1, []) ∧
  decode [0xA1020080#32] = .ok (.setExtGain 2#2 128#9, []) ∧
  decode [0xA2000100#32] = .ok (.setExtBoost 256#9, []) ∧
  decode [0xA3000002#32] = .ok (.setExtAm 2#3, []) ∧
  decode [0xA4000000#32] = .ok (.setExtRmodeNearest, []) ∧
  decode [0x00000000#32] = .ok (.illegalOp0 0#28, [])

/-- O2. Decoding an encoded well-formed command gives it back, whatever words follow (30_encoding.md R142 to R148). -/
def Obligations.DecodeOfEncode : Prop :=
  ∀ (i : Instr) (rest : List Word), i.wf = true → decode (encode i ++ rest) = .ok (i, rest)

/-- O3. What decodes is well-formed, and its words are its encoding: each command has one encoding
(30_encoding.md R142 to R148). -/
def Obligations.EncodeOfDecode : Prop :=
  ∀ (ws rest : List Word) (i : Instr), decode ws = .ok (i, rest) → i.wf = true ∧ ws = encode i ++ rest

/-- O4. A whole command raises IllegalCommand exactly when its word is one of 30_encoding.md R148: its words are
taken, the response carries the word, and nothing else changes (60_exceptions.md R501); a MON with a bad selector
raises it with the selector, beside the word (45_chip_commands.md R432). That the fault is a next state is log 2,
that the words of a SETRATE leave with it log 5, the response list log 6, the two infos of the bad selector log
18. -/
def Obligations.IllegalWordRaisesIllegalCommand : Prop :=
  ∀ (s : State) (w : Word) (operands rest : List Word), s.commands = w :: (operands ++ rest) →
    operands.length = (if field w 28 4 = 0x5 then 2 else 0) →
    (IllegalWord w → ¬BadSelector w →
      step s = .next { s with commands := rest, results := s.results ++ [.illegalCommand w] }) ∧
    (BadSelector w →
      step s = .next { s with
        commands := rest, results := s.results ++ [.illegalSelector w (w.extractLsb' 0 4)] }) ∧
    (¬IllegalWord w →
      ∃ t r, step s = .next t ∧ t.results = s.results ++ [r] ∧ r.status ≠ 1)

/-- O5. A step takes the first command at the port and runs it in the state with its words taken; with no word at the
port it changes nothing (20_memory.md R111, 60_exceptions.md R516; the port in State is log 4). -/
def Obligations.StepRunsDecodedCommand : Prop :=
  (∀ (s : State) (i : Instr) (rest : List Word), decode s.commands = .ok (i, rest) →
    step s = exec i { s with commands := rest }) ∧
  (∀ s : State, s.commands = [] → step s = .next s)

/-- O6. A SETRATE waits for its two operand words and changes nothing until then; every other command, and a SETRATE
with them, leaves the port whole, 3 words or 1, an illegal one too (30_encoding.md R144). That the hold is a step
that changes nothing is log 4, that an illegal SETRATE word takes its operand words with it log 5, that a fault is
a next state log 2. -/
def Obligations.PortHoldsAndTakesWholeCommands : Prop :=
  ∀ (s : State) (w : Word) (rest : List Word), s.commands = w :: rest →
    (field w 28 4 = 0x5 ∧ rest.length < 2 → step s = .next s) ∧
    (¬(field w 28 4 = 0x5 ∧ rest.length < 2) →
      ∃ t, step s = .next t ∧ t.commands = (w :: rest).drop (if field w 28 4 = 0x5 then 3 else 1))

/-- O7. Every step answers a next state: no state and no word stops the block (60_exceptions.md R505). That a fault is
a next state is log 2, Unsupported among them log 3; that a step at an empty port, or at the SETRATE that
60_exceptions.md R506 calls stuck, is a next state that changes nothing is log 4. -/
def Obligations.StepAlwaysAnswersNext : Prop :=
  ∀ s : State, ∃ t, step s = .next t

/-! ## Register writes -/

/-- O8. WR to FREQ_LO and FREQ_HI (45_chip_commands.md R403, R404): the byte is stored, F follows, and the accumulator
and all but the active model and the coefficients stay. The list the status is added to is log 6. -/
def Obligations.WriteFrequency : Prop :=
  ∀ (d : Byte) (s : State),
    (exec (.wrFreqLo0 d) s =
      .next (afterWrite s (withVoice s .v0 { voiceRegs s .v0 with freqLo := d }) s.chip.osc s.chip.env)) ∧
    (exec (.wrFreqLo1 d) s =
      .next (afterWrite s (withVoice s .v1 { voiceRegs s .v1 with freqLo := d }) s.chip.osc s.chip.env)) ∧
    (exec (.wrFreqLo2 d) s =
      .next (afterWrite s (withVoice s .v2 { voiceRegs s .v2 with freqLo := d }) s.chip.osc s.chip.env)) ∧
    (exec (.wrFreqHi0 d) s =
      .next (afterWrite s (withVoice s .v0 { voiceRegs s .v0 with freqHi := d }) s.chip.osc s.chip.env)) ∧
    (exec (.wrFreqHi1 d) s =
      .next (afterWrite s (withVoice s .v1 { voiceRegs s .v1 with freqHi := d }) s.chip.osc s.chip.env)) ∧
    (exec (.wrFreqHi2 d) s =
      .next (afterWrite s (withVoice s .v2 { voiceRegs s .v2 with freqHi := d }) s.chip.osc s.chip.env)) ∧
    (∀ v, freqOf { voiceRegs s v with freqLo := d } = (voiceRegs s v).freqHi ++ d) ∧
    (∀ v, freqOf { voiceRegs s v with freqHi := d } = d ++ (voiceRegs s v).freqLo)

/-- O9. WR to PW_LO and PW_HI (45_chip_commands.md R405, R406): the byte is stored, bits 7:4 of PW_HI discarded, and
PW follows. The list the status is added to is log 6. -/
def Obligations.WritePulseWidth : Prop :=
  ∀ (d : Byte) (s : State),
    (exec (.wrPwLo0 d) s =
      .next (afterWrite s (withVoice s .v0 { voiceRegs s .v0 with pwLo := d }) s.chip.osc s.chip.env)) ∧
    (exec (.wrPwLo1 d) s =
      .next (afterWrite s (withVoice s .v1 { voiceRegs s .v1 with pwLo := d }) s.chip.osc s.chip.env)) ∧
    (exec (.wrPwLo2 d) s =
      .next (afterWrite s (withVoice s .v2 { voiceRegs s .v2 with pwLo := d }) s.chip.osc s.chip.env)) ∧
    (exec (.wrPwHi0 d) s =
      .next (afterWrite s (withVoice s .v0 { voiceRegs s .v0 with pwHi := d &&& 0x0F#8 }) s.chip.osc s.chip.env)) ∧
    (exec (.wrPwHi1 d) s =
      .next (afterWrite s (withVoice s .v1 { voiceRegs s .v1 with pwHi := d &&& 0x0F#8 }) s.chip.osc s.chip.env)) ∧
    (exec (.wrPwHi2 d) s =
      .next (afterWrite s (withVoice s .v2 { voiceRegs s .v2 with pwHi := d &&& 0x0F#8 }) s.chip.osc s.chip.env)) ∧
    (∀ v, pwOf { voiceRegs s v with pwLo := d } = (voiceRegs s v).pwHi.extractLsb' 0 4 ++ d) ∧
    (∀ v, pwOf { voiceRegs s v with pwHi := d &&& 0x0F#8 } = d.extractLsb' 0 4 ++ (voiceRegs s v).pwLo)

/-- O10. WR to CONTROL (45_chip_commands.md R407): the TEST rule of the oscillator (41_oscillator.md R232), the gate
edge of the envelope (42_envelope.md R280), both from the old byte, and the byte stored. The list the status is
added to is log 6. -/
def Obligations.WriteControl : Prop :=
  ∀ (d : Byte) (s : State),
    exec (.wrControl0 d) s = .next (afterControl s .v0 d) ∧
    exec (.wrControl1 d) s = .next (afterControl s .v1 d) ∧
    exec (.wrControl2 d) s = .next (afterControl s .v2 d)

/-- O11. WR to ATTACK_DECAY and SUSTAIN_RELEASE (45_chip_commands.md R408, R409): the byte is stored and the rate
period follows by the phase (42_envelope.md R281, R282). The list the status is added to is log 6. -/
def Obligations.WriteEnvelopeRates : Prop :=
  ∀ (d : Byte) (s : State),
    exec (.wrAttackDecay0 d) s = .next (afterAttackDecay s .v0 d) ∧
    exec (.wrAttackDecay1 d) s = .next (afterAttackDecay s .v1 d) ∧
    exec (.wrAttackDecay2 d) s = .next (afterAttackDecay s .v2 d) ∧
    exec (.wrSustainRelease0 d) s = .next (afterSustainRelease s .v0 d) ∧
    exec (.wrSustainRelease1 d) s = .next (afterSustainRelease s .v1 d) ∧
    exec (.wrSustainRelease2 d) s = .next (afterSustainRelease s .v2 d)

/-- O12. WR to FC_LO, FC_HI, RES_FILT and MODE_VOL (45_chip_commands.md R410 to R412): the byte is stored, bits 7:3 of
FC_LO discarded, W0 and DIVQ recomputed from the new fields, and the integrators stay. The list the status is
added to is log 6. -/
def Obligations.WriteFilterRegisters : Prop :=
  ∀ (d : Byte) (s : State),
    exec (.wrFcLo d) s =
      .next (afterWrite s { s.chip.regs with fcLo := d &&& 0x07#8 } s.chip.osc s.chip.env) ∧
    exec (.wrFcHi d) s = .next (afterWrite s { s.chip.regs with fcHi := d } s.chip.osc s.chip.env) ∧
    exec (.wrResFilt d) s = .next (afterWrite s { s.chip.regs with resFilt := d } s.chip.osc s.chip.env) ∧
    exec (.wrModeVol d) s = .next (afterWrite s { s.chip.regs with modeVol := d } s.chip.osc s.chip.env)

/-- O13. A WR to 0x19 to 0x1F changes no state, copies no model and raises nothing; a RD there returns 0x00
(20_memory.md R101). The list the status or the result is added to is log 6. -/
def Obligations.UnmappedAddressesDoNothing : Prop :=
  (∀ (d : Byte) (s : State),
    exec (.wrUnmapped19 d) s = .next (done s) ∧ exec (.wrUnmapped1A d) s = .next (done s) ∧
    exec (.wrUnmapped1B d) s = .next (done s) ∧ exec (.wrUnmapped1C d) s = .next (done s) ∧
    exec (.wrUnmapped1D d) s = .next (done s) ∧ exec (.wrUnmapped1E d) s = .next (done s) ∧
    exec (.wrUnmapped1F d) s = .next (done s)) ∧
  (∀ (a : Addr) (s : State), 0x19 ≤ a.toNat → exec (.rd a) s = .next (doneWith 0x00#32 s))

/-- O14. RD returns the stored byte of its address, 0x00 above 0x18, and changes nothing (45_chip_commands.md R431,
with the address map of 20_memory.md R102). The list the result is added to is log 6. -/
def Obligations.ReadReturnsStoredByte : Prop :=
  ∀ (a : Addr) (s : State),
    exec (.rd a) s =
      .next (doneWith
        (if a.toNat ≤ 0x18 then ((registerBytes s.chip.regs).getD a.toNat 0x00#8).setWidth 32 else 0x00#32) s)

/-- O15. The registers over any command: a WR stores the masked byte at its address and no other, RESET clears all 25,
and every other command leaves them (10_state.md R51, 45_chip_commands.md R401). -/
def Obligations.RegistersChangeOnlyByWriteAndReset : Prop :=
  ∀ (i : Instr) (s t : State), exec i s = .next t →
    registerBytes t.chip.regs =
      if opcode i = 0x1 then
        (registerBytes s.chip.regs).set (field (wordOf i) 8 5)
          (BitVec.ofNat 8 (field (wordOf i) 0 8) &&& writeMask (field (wordOf i) 8 5))
      else if opcode i = 0x3 then List.replicate 25 0x00#8
      else registerBytes s.chip.regs

/-- O16. A WR followed by a RD of the same address returns the masked byte, 0x00 at an unmapped address
(70_reset_and_hazards.md R610, 45_chip_commands.md R401, R431); the same WR twice in a row leaves the block as
once: for CONTROL, which 20_memory.md R108 sets apart, because the second write makes no gate edge (42_envelope.md
R280) and under TEST clears what is clear (41_oscillator.md R232, 45_chip_commands.md R407). The list the result
is added to is log 6. -/
def Obligations.WriteReadBackAndRepeat : Prop :=
  ∀ (a : Addr) (d : Byte) (s : State),
    ∃ t u, exec (wrCommand a d) s = .next t ∧ exec (wrCommand a d) t = .next u ∧ u.chip = t.chip ∧
      exec (.rd a) t =
        .next (doneWith (if a.toNat ≤ 0x18 then (d &&& writeMask a.toNat).setWidth 32 else 0x00#32) t)

/-! ## Reads -/

/-- O17. MON returns the waveform outputs, the envelope levels, FC and VOL, and changes nothing (45_chip_commands.md
R432, 20_memory.md R109). The list the result is added to is log 6. -/
def Obligations.MonitorReadsChangeNothing : Prop :=
  ∀ s : State,
    exec .monWave0 s = .next (doneWith ((chipWave s.chip .v0).setWidth 32) s) ∧
    exec .monWave1 s = .next (doneWith ((chipWave s.chip .v1).setWidth 32) s) ∧
    exec .monWave2 s = .next (doneWith ((chipWave s.chip .v2).setWidth 32) s) ∧
    exec .monEnv0 s = .next (doneWith (s.chip.env.v0.level.setWidth 32) s) ∧
    exec .monEnv1 s = .next (doneWith (s.chip.env.v1.level.setWidth 32) s) ∧
    exec .monEnv2 s = .next (doneWith (s.chip.env.v2.level.setWidth 32) s) ∧
    exec .monFc s = .next (doneWith ((s.chip.regs.fcHi ++ s.chip.regs.fcLo.extractLsb' 0 3).setWidth 32) s) ∧
    exec .monVol s = .next (doneWith ((s.chip.regs.modeVol.extractLsb' 0 4).setWidth 32) s)

/-- O18. WAVE[v] by its selector, in numbers: none, triangle with the ring term, sawtooth, pulse, noise, the table, and
0 for the noise combinations (41_oscillator.md R240 to R245; the table is an opaque constant, log 7). -/
def Obligations.WaveformSelection : Prop :=
  ∀ (c : Chip) (v : VoiceId),
    (chipWave c v).toNat =
      waveNat c.modelActive (c.regs.voice.get v) ((c.osc.get (voiceBefore v)).acc.getLsbD 23) (c.osc.get v)

/-! ## Lifecycle -/

/-- O19. RESET writes the synthesis state of 10_state.md R90 and keeps the configuration and the samples emitted
(45_chip_commands.md R420, 70_reset_and_hazards.md R601). The list the status is added to is log 6. -/
def Obligations.ResetLeaves : Prop :=
  ∀ s : State,
    exec .reset s =
      .next { s with
        chip := {
          regs := RegFile.reset
          osc := ⟨⟨0#24, lfsrSeed⟩, ⟨0#24, lfsrSeed⟩, ⟨0#24, lfsrSeed⟩⟩
          env := ⟨⟨0#8, .release, 0#15, ratePeriod 0#4, 0#5, 1#5, true⟩,
            ⟨0#8, .release, 0#15, ratePeriod 0#4, 0#5, 1#5, true⟩,
            ⟨0#8, .release, 0#15, ratePeriod 0#4, 0#5, 1#5, true⟩⟩
          filt := ⟨0#32, 0#32, 0#32, 0#32, w0Table s.chip.modelPending 0#11, divqBoosted s.chip.ext.boost 0#4⟩
          modelPending := s.chip.modelPending
          modelActive := s.chip.modelPending
          ext := s.chip.ext
          dstate := ditherSeed
          clock := { s.chip.clock with resid := 0#32 } }
        results := s.results ++ [.ok] } ∧
    registerBytes RegFile.reset = List.replicate 25 0x00#8

/-- O20. The block after RESET depends on the configuration alone, and two RESETs leave what one leaves
(70_reset_and_hazards.md R604, 45_chip_commands.md R420). -/
def Obligations.ResetForgetsHistory : Prop :=
  ∀ s s' : State, configurationOf s.chip = configurationOf s'.chip →
    ∃ t t' u, exec .reset s = .next t ∧ exec .reset s' = .next t' ∧ t.chip = t'.chip ∧
      exec .reset t = .next u ∧ u.chip = t.chip

/-- O21. After RESET every voice sample is 0 and so is the output, and a RENDER of n samples emits n zeros, whatever
extension is on (10_state.md R92, 45_chip_commands.md R420). The lists of samples are log 6. -/
def Obligations.SilenceAfterReset : Prop :=
  ∀ (s : State) (n : BitVec 28),
    ∃ t, exec .reset s = .next t ∧ (∀ v, (voiceSamples t.chip).get v = 0) ∧ outSample t.chip = 0#16 ∧
      (t.chip.ext.renderMode = .nearest →
        ∃ u, exec (.render n) t = .next u ∧ u.out = t.out ++ List.replicate n.toNat 0#16)

/-- O22. Construction (70_reset_and_hazards.md R600, 10_state.md R91, 60_exceptions.md R503): ConfigError at a rate of
0, otherwise the reset values with the configuration of R91. That the port is a list, empty at first, is log 4,
the two output lists log 6; that `State.reset` is the construction at 48000 and 985248 is log 1. -/
def Obligations.ConstructionState : Prop :=
  (∀ host chip : Word, host = 0#32 ∨ chip = 0#32 → construct host chip = .error (.configError host chip)) ∧
  (∀ host chip : Word, host ≠ 0#32 → chip ≠ 0#32 →
    ∃ s t, construct host chip = .ok s ∧ exec .reset s = .next t ∧ t.chip = s.chip ∧
      s.chip.clock = { sRate := host, cRate := chip, resid := 0#32 } ∧ s.chip.modelPending = .a ∧
      s.chip.ext = { ditherEn := false, gain := ⟨256#9, 256#9, 256#9⟩, boost := 0#9, amEn := ⟨false, false, false⟩,
                     renderMode := .nearest } ∧
      s.commands = [] ∧ s.out = [] ∧ s.results = []) ∧
  construct 48000#32 985248#32 = .ok State.reset

/-- O23. SETMODEL writes MODEL_PENDING and nothing else (45_chip_commands.md R421). The list the status is added to is
log 6. -/
def Obligations.SetModelWritesPending : Prop :=
  ∀ s : State,
    exec .setModelA s = .next { s with chip := { s.chip with modelPending := .a }, results := s.results ++ [.ok] } ∧
    exec .setModelB s = .next { s with chip := { s.chip with modelPending := .b }, results := s.results ++ [.ok] }

/-- O24. Over any command: MODEL_ACTIVE becomes MODEL_PENDING, and W0 that model's entry for FC, at a WR to a mapped
address and at RESET; every other command leaves both (45_chip_commands.md R402, 70_reset_and_hazards.md R613). -/
def Obligations.ModelTakesEffectAtMappedWriteOrReset : Prop :=
  ∀ (i : Instr) (s t : State), exec i s = .next t →
    (isMappedWrite i ∨ opcode i = 0x3 →
      t.chip.modelActive = s.chip.modelPending ∧
        t.chip.filt.w0 = w0Table s.chip.modelPending (fcOf t.chip.regs) ∧
        t.chip.filt.divq = divqBoosted s.chip.ext.boost (resOf t.chip.regs)) ∧
    (¬(isMappedWrite i ∨ opcode i = 0x3) →
      t.chip.modelActive = s.chip.modelActive ∧ t.chip.filt.w0 = s.chip.filt.w0)

/-- O25. SETRATE: ConfigError with the two rates when either is 0, and nothing changed; otherwise both rates written
and RESID cleared, nothing else (45_chip_commands.md R422, 40_clock_converter.md R205). That the fault is a next
state is log 2, the list the response is added to is log 6. -/
def Obligations.SetRateConfigures : Prop :=
  ∀ (host chip : Word) (s : State),
    (host ≠ 0#32 ∧ chip ≠ 0#32 →
      exec (.setRate host chip) s =
        .next { s with
          chip := { s.chip with clock := { sRate := host, cRate := chip, resid := 0#32 } }
          results := s.results ++ [.ok] }) ∧
    (host = 0#32 ∨ chip = 0#32 →
      exec (.setRate host chip) s = .next { s with results := s.results ++ [.configError host chip] })

/-! ## The clock converter -/

/-- O26. One sample's cycle count and residual: RESID + C_RATE divided by S_RATE, kept exactly in 32 bits; from
RESID < S_RATE the count is floor(C_RATE / S_RATE) or one more, one more only when S_RATE does not divide C_RATE
(40_clock_converter.md R201, R203). -/
def Obligations.SampleCycleCount : Prop :=
  ∀ k : ClockAcc, k.sRate ≠ 0#32 →
    sampleCycles k = (k.resid.toNat + k.cRate.toNat) / k.sRate.toNat ∧
    (clockAdvance k).resid.toNat = (k.resid.toNat + k.cRate.toNat) % k.sRate.toNat ∧
    (clockAdvance k).resid.toNat < k.sRate.toNat ∧
    (clockAdvance k).sRate = k.sRate ∧ (clockAdvance k).cRate = k.cRate ∧
    (k.resid.toNat < k.sRate.toNat →
      (sampleCycles k = k.cRate.toNat / k.sRate.toNat ∨
        (sampleCycles k = k.cRate.toNat / k.sRate.toNat + 1 ∧ k.cRate.toNat % k.sRate.toNat ≠ 0)) ∧
      sampleCycles k ≤ 2 ^ 32 - 1)

/-- O27. From RESID = 0 the counts of the first n samples add up to floor(n * C_RATE / S_RATE) and RESID is the
remainder: the error stays below one cycle for ever (40_clock_converter.md R202, R200). -/
def Obligations.LongRunClockExact : Prop :=
  ∀ (k : ClockAcc) (n : Nat), k.sRate ≠ 0#32 → k.resid = 0#32 →
    totalCycles n k = n * k.cRate.toNat / k.sRate.toNat ∧
    (clockAfter n k).resid.toNat = n * k.cRate.toNat % k.sRate.toNat

/-! ## Clocking -/

/-- O28. CLK n runs n cycles of all oscillators and envelopes, then one filter clock of n cycles on the voice samples
formed then, and emits nothing. A filter clock forms the scaled inputs and the routing sums, takes the three
integrators through the sub-steps of n cycles (O42, O43) with Vi held, keeps W0 and DIVQ, and latches Vnf; CLK 0
leaves the voices and the integrators and still latches VNF (45_chip_commands.md R440, 43_filter.md R327, R329, R331).
The list the status is added to is log 6. -/
def Obligations.ClkRunsCyclesThenFilter : Prop :=
  (∀ (n : BitVec 28) (s : State),
    exec (.clk n) s = .next { s with chip := afterClock n.toNat s.chip, results := s.results ++ [.ok] }) ∧
  (∀ (n : Nat) (vs : PerVoice Int) (e : Int) (c : Chip),
    (filterClock n vs e c).filt.vnf =
      BitVec.ofInt 32 (bypassSum c.regs (scaledInputs c.ext c.dstate vs) (e / 128))) ∧
  (∀ (n : Nat) (vs : PerVoice Int) (e : Int) (c : Chip),
    let f := (filterClock n vs e c).filt
    let g := runSubSteps (filterPathSum c.regs (scaledInputs c.ext c.dstate vs) (e / 128)) n c.filt
    f.vhp = g.vhp ∧ f.vbp = g.vbp ∧ f.vlp = g.vlp ∧ f.w0 = c.filt.w0 ∧ f.divq = c.filt.divq) ∧
  (∀ s : State, ∃ t, exec (.clk 0#28) s = .next t ∧ t.chip.osc = s.chip.osc ∧ t.chip.env = s.chip.env ∧
    t.chip.filt.vhp = s.chip.filt.vhp ∧ t.chip.filt.vbp = s.chip.filt.vbp ∧ t.chip.filt.vlp = s.chip.filt.vlp)

/-- O29. However a number of cycles is split over CLK commands, the oscillators and envelopes end the same
(70_reset_and_hazards.md R615, 45_chip_commands.md R440). -/
def Obligations.ClkSplitKeepsVoices : Prop :=
  ∀ (m n : BitVec 28) (s : State), m.toNat + n.toNat < 2 ^ 28 →
    ∃ t u w, exec (.clk m) s = .next t ∧ exec (.clk n) t = .next u ∧ exec (.clk (m + n)) s = .next w ∧
      u.chip.osc = w.chip.osc ∧ u.chip.env = w.chip.env

/-- O30. One cycle of each oscillator, from the start-of-cycle state of all three: the sum, the wrap as sync event, the
sync reset, and the noise clock (41_oscillator.md R221, R222, R224, R225, R227, R228). -/
def Obligations.OscillatorCycle : Prop :=
  ∀ s : State, ∃ t, exec (.clk 1#28) s = .next t ∧
    ∀ v : VoiceId,
      let r := s.chip.regs.voice.get v
      let o := s.chip.osc.get v
      ((r.control.getLsbD 1 = true ∧
          syncWrap (s.chip.regs.voice.get (voiceBefore v)) (s.chip.osc.get (voiceBefore v)) →
        (t.chip.osc.get v).acc = 0#24) ∧
      (¬(r.control.getLsbD 1 = true ∧
          syncWrap (s.chip.regs.voice.get (voiceBefore v)) (s.chip.osc.get (voiceBefore v))) →
        (t.chip.osc.get v).acc.toNat = oscSumNat r o % 2 ^ 24) ∧
      (r.control.getLsbD 3 = false ∧ o.acc.getLsbD 19 = false ∧ (oscSumNat r o).testBit 19 = true →
        (t.chip.osc.get v).lfsr.toNat =
          (2 * o.lfsr.toNat + (if o.lfsr.getLsbD 22 = o.lfsr.getLsbD 17 then 0 else 1)) % 2 ^ 23) ∧
      (¬(r.control.getLsbD 3 = false ∧ o.acc.getLsbD 19 = false ∧ (oscSumNat r o).testBit 19 = true) →
        (t.chip.osc.get v).lfsr = o.lfsr))

/-- O31. One cycle of each envelope: the rate counter that goes on at 1 after 2^15 - 1, the exponential counter bypassed
in ATTACK, the hold at zero, and the level step with the phase change, the exponential period and the zero latch
(42_envelope.md R271 to R275). -/
def Obligations.EnvelopeCycle : Prop :=
  ∀ s : State, ∃ t, exec (.clk 1#28) s = .next t ∧
    ∀ v : VoiceId,
      let e := s.chip.env.get v
      let e' := t.chip.env.get v
      (¬isRateTick e → e' = { e with rc := BitVec.ofNat 15 (rateCountNat e) }) ∧
      (isRateTick e → ¬passesExponential e → e' = { e with rc := 0#15, ec := e.ec + 1#5 }) ∧
      (isRateTick e → passesExponential e → e.holdZero = true → e' = { e with rc := 0#15, ec := 0#5 }) ∧
      (isRateTick e → passesExponential e → e.holdZero = false → LevelStep (s.chip.regs.voice.get v) e e')

/-- O32. Over any command: a level that starts and ends it in ATTACK has not fallen; one that starts and ends it in
{DECAY, SUSTAIN}, or in RELEASE, has not risen (42_envelope.md R286). -/
def Obligations.EnvelopeMonotone : Prop :=
  ∀ (i : Instr) (s t : State) (v : VoiceId), exec i s = .next t →
    let e := s.chip.env.get v
    let e' := t.chip.env.get v
    (e.phase = .attack → e'.phase = .attack → e.level.toNat ≤ e'.level.toNat) ∧
    ((e.phase = .decay ∨ e.phase = .sustain) → (e'.phase = .decay ∨ e'.phase = .sustain) →
      e'.level.toNat ≤ e.level.toNat) ∧
    (e.phase = .release → e'.phase = .release → e'.level.toNat ≤ e.level.toNat)

/-- O33. A level held at zero stays 0 over any command, and the hold ends only at a gate-on edge (42_envelope.md
R287). -/
def Obligations.ZeroHoldsUntilGateOn : Prop :=
  ∀ (i : Instr) (s t : State) (v : VoiceId), exec i s = .next t →
    (s.chip.env.get v).holdZero = true → (s.chip.env.get v).level = 0#8 →
    (t.chip.env.get v).level = 0#8 ∧
    ((t.chip.env.get v).holdZero = false →
      (s.chip.regs.voice.get v).control.getLsbD 0 = false ∧ (t.chip.regs.voice.get v).control.getLsbD 0 = true)

/-- O34. A phase changes in one cycle only from ATTACK to DECAY at level 255, from DECAY to SUSTAIN at the sustain level
or from SUSTAIN to DECAY away from it; over any command that runs no cycle and is not RESET, only with the gate bit
(42_envelope.md R288). -/
def Obligations.PhaseChangesOnlyAtEdgeOrLevelStep : Prop :=
  (∀ (s t : State) (v : VoiceId), exec (.clk 1#28) s = .next t →
    (t.chip.env.get v).phase ≠ (s.chip.env.get v).phase →
    ((s.chip.env.get v).phase = .attack ∧ (t.chip.env.get v).phase = .decay ∧ (t.chip.env.get v).level = 255#8) ∨
    ((s.chip.env.get v).phase = .decay ∧ (t.chip.env.get v).phase = .sustain ∧
      (t.chip.env.get v).level.toNat = 17 * ((s.chip.regs.voice.get v).sustainRelease.toNat / 16)) ∨
    ((s.chip.env.get v).phase = .sustain ∧ (t.chip.env.get v).phase = .decay ∧
      (t.chip.env.get v).level.toNat ≠ 17 * ((s.chip.regs.voice.get v).sustainRelease.toNat / 16))) ∧
  (∀ (i : Instr) (s t : State) (v : VoiceId), exec i s = .next t → ¬isClocking i → opcode i ≠ 0x3 →
    (t.chip.env.get v).phase ≠ (s.chip.env.get v).phase →
    ((s.chip.regs.voice.get v).control.getLsbD 0 = false ∧ (t.chip.regs.voice.get v).control.getLsbD 0 = true ∧
      (t.chip.env.get v).phase = .attack) ∨
    ((s.chip.regs.voice.get v).control.getLsbD 0 = true ∧ (t.chip.regs.voice.get v).control.getLsbD 0 = false ∧
      (t.chip.env.get v).phase = .release))

/-- O35. The ADSR delay bug: with a period not above the rate counter, the next rate tick comes after
2^15 - RC + RP - 1 cycles, the counter running to 2^15 - 1 and on from 1; with a period above it, after RP - RC
(42_envelope.md R276). -/
def Obligations.AdsrDelayBug : Prop :=
  ∀ (s : State) (v : VoiceId) (k : BitVec 28),
    let e := s.chip.env.get v
    1 ≤ e.rp.toNat →
    ∃ t, exec (.clk k) s = .next t ∧
      (e.rp.toNat ≤ e.rc.toNat →
        (k.toNat < 2 ^ 15 - e.rc.toNat + e.rp.toNat - 1 →
          t.chip.env.get v =
            { e with rc := BitVec.ofNat 15 (countedUp e.rc.toNat k.toNat) }) ∧
        (k.toNat = 2 ^ 15 - e.rc.toNat + e.rp.toNat - 1 → (t.chip.env.get v).rc = 0#15)) ∧
      (e.rc.toNat < e.rp.toNat →
        (k.toNat < e.rp.toNat - e.rc.toNat →
          t.chip.env.get v = { e with rc := BitVec.ofNat 15 (e.rc.toNat + k.toNat) }) ∧
        (k.toNat = e.rp.toNat - e.rc.toNat → (t.chip.env.get v).rc = 0#15))

/-- O36. A full attack: from level 0 in ATTACK with RC = 0 the level is k after k periods, and at 255 the decay begins
(42_envelope.md R289, the first bullet). -/
def Obligations.AttackTakes255Periods : Prop :=
  ∀ (s : State) (v : VoiceId) (k : Nat),
    let e := s.chip.env.get v
    e.phase = .attack → e.level = 0#8 → e.rc = 0#15 → e.holdZero = false → 1 ≤ e.rp.toNat → k ≤ 255 →
    ∃ t, exec (.clk (BitVec.ofNat 28 (k * e.rp.toNat))) s = .next t ∧
      (t.chip.env.get v).level.toNat = k ∧
      ((t.chip.env.get v).phase = if k = 255 then Phase.decay else Phase.attack)

/-- O37. A gate-off write and a gate-on write with no clocking between them: ATTACK with its period, the hold at zero
ended, level and counters as they were (70_reset_and_hazards.md R614). -/
def Obligations.GateRetrigger : Prop :=
  ∀ (s : State) (v : VoiceId) (off on : Byte), (voiceRegs s v).control.getLsbD 0 = true →
    off.getLsbD 0 = false → on.getLsbD 0 = true →
    ∃ t, execAll [wrTo (.control v) off, wrTo (.control v) on] s = .next t ∧
      t.chip.env.get v =
        { s.chip.env.get v with
          phase := .attack, rp := ratePeriod ((voiceRegs s v).attackDecay.extractLsb' 4 4), holdZero := false }

/-! ## The voice sample and the filter's input -/

/-- O38. VS[v], with its amplitude modulation by the voice before, every waveform read from one state; both forms lie in
[-522240, 521985] (44_voice_mixer.md R370, R371). -/
def Obligations.VoiceSampleFormulaAndRange : Prop :=
  ∀ (c : Chip) (v : VoiceId),
    (c.ext.amEn.get v = false →
      (voiceSamples c).get v =
        (((chipWave c v).toNat : Int) - 0x800) * ((c.env.get v).level.toNat : Int)) ∧
    (c.ext.amEn.get v = true →
      (voiceSamples c).get v =
        (((chipWave c v).toNat : Int) - 0x800) * ((c.env.get v).level.toNat : Int) *
          ((chipWave c (voiceBefore v)).toNat : Int) / 4096) ∧
    -522240 ≤ (voiceSamples c).get v ∧ (voiceSamples c).get v ≤ 521985

/-- O39. The input stage of a filter clock: one dither draw for each voice in order where dither is on, the scaling by 7
bits, then the gain; DSTATE keeps the last draw, and does not move while dither is off (44_voice_mixer.md R373,
R374, R376). -/
def Obligations.FilterInputStage : Prop :=
  ∀ (c : Chip) (vs : PerVoice Int) (n : Nat) (e : Int),
    (∀ v : VoiceId,
      (scaledInputs c.ext c.dstate vs).get v =
        (vs.get v + (ditherNat c.ext.ditherEn c.dstate.toNat v : Int)) / 128 * ((c.ext.gain.get v).toNat : Int) / 256) ∧
    (filterClock n vs e c).dstate.toNat =
      (if c.ext.ditherEn = true then ditherDraw (ditherDraw (ditherDraw c.dstate.toNat)) else c.dstate.toNat)

/-- O40. A voice sample scales into 13 bits, with dither and without, and a gain of 256 leaves the scaled input as it is:
the sample with its dither offset, shifted by 7, and without dither the sample alone (44_voice_mixer.md R372, R373,
R374). -/
def Obligations.FilterInputRanges : Prop :=
  ∀ (c : Chip) (v : VoiceId), c.ext.gain.get v = 256#9 →
    -4080 ≤ (scaledInputs c.ext c.dstate (voiceSamples c)).get v ∧
    (scaledInputs c.ext c.dstate (voiceSamples c)).get v ≤ (if c.ext.ditherEn = true then 4079 else 4078) ∧
    (scaledInputs c.ext c.dstate (voiceSamples c)).get v =
      ((voiceSamples c).get v + (ditherNat c.ext.ditherEn c.dstate.toNat v : Int)) / 128 ∧
    (c.ext.ditherEn = false →
      (scaledInputs c.ext c.dstate (voiceSamples c)).get v = (voiceSamples c).get v / 128)

/-! ## The filter -/

/-- O41. The routing sums: Vi takes the routed inputs and Vnf the others, voice 2 silenced by OFF3 only where it is not
routed, each input in exactly one sum (43_filter.md R328). -/
def Obligations.RoutingSums : Prop :=
  ∀ (f : RegFile) (x : PerVoice Int) (xe : Int),
    let y2 := if f.modeVol.getLsbD 7 = true ∧ f.resFilt.getLsbD 2 = false then 0 else x.v2
    filterPathSum f x xe =
      (if f.resFilt.getLsbD 0 = true then x.v0 else 0) + (if f.resFilt.getLsbD 1 = true then x.v1 else 0) +
        (if f.resFilt.getLsbD 2 = true then y2 else 0) + (if f.resFilt.getLsbD 3 = true then xe else 0) ∧
    bypassSum f x xe =
      (if f.resFilt.getLsbD 0 = false then x.v0 else 0) + (if f.resFilt.getLsbD 1 = false then x.v1 else 0) +
        (if f.resFilt.getLsbD 2 = false then y2 else 0) + (if f.resFilt.getLsbD 3 = false then xe else 0) ∧
    filterPathSum f x xe + bypassSum f x xe = x.v0 + x.v1 + y2 + xe

/-- O42. The sub-steps of n cycles are the loop of 43_filter.md R329: none for 0, otherwise one of min(8, n) and the
rest; 20 cycles are 8, 8, 4. -/
def Obligations.SubStepLoop : Prop :=
  (∀ n : Nat, subStepPlan n = if n = 0 then [] else min 8 n :: subStepPlan (n - min 8 n)) ∧
  (∀ (vi : Int) (n : Nat) (f : Filt), runSubSteps vi n f = (subStepPlan n).foldl (fun f dt => subStep vi f dt) f) ∧
  subStepPlan 20 = [8, 8, 4]

/-- O43. One sub-step: VBP, then VLP from the new VBP, then VHP from both, exact products, floor shifts, each wrapped to
32 bits; nothing else of the filter changes (43_filter.md R330). -/
def Obligations.SubStepStatements : Prop :=
  ∀ (vi : Int) (f : Filt) (dt : Nat),
    let g := subStep vi f dt
    g.vbp = BitVec.ofInt 32 (f.vbp.toInt - (f.w0.toNat : Int) * (dt : Int) * f.vhp.toInt / 2 ^ 20) ∧
    g.vlp = BitVec.ofInt 32 (f.vlp.toInt - (f.w0.toNat : Int) * (dt : Int) * g.vbp.toInt / 2 ^ 20) ∧
    g.vhp = BitVec.ofInt 32 (g.vbp.toInt * (f.divq.toNat : Int) / 2 ^ 10 - g.vlp.toInt - vi) ∧
    g.vnf = f.vnf ∧ g.w0 = f.w0 ∧ g.divq = f.divq

/-- O44. FREQ_REG rounds half up and saturates at 16 bits, 440 Hz at 985248 Hz is 7493, and the FREQ pseudo-instruction
leaves F = f whatever it was (41_oscillator.md R250, R251; 30_encoding.md R151). -/
def Obligations.FrequencyRegisterConversion : Prop :=
  (∀ (f : Rat) (cRate : Nat), 0 ≤ f → 0 < cRate →
    ((freqReg f cRate).toNat : Int) = min 0xFFFF ⌊f * 2 ^ 24 / (cRate : Rat) + 1 / 2⌋) ∧
  freqReg 440 985248 = 7493#16 ∧
  (∀ (v : VoiceId) (f : BitVec 16) (s : State),
    ∃ t, execAll (pseudoFreq v f) s = .next t ∧ freqOf (t.chip.regs.voice.get v) = f)

/-- O45. Over any command that runs no cycle and is not RESET, VHP, VBP, VLP and VNF are unchanged (43_filter.md
R335). -/
def Obligations.IntegratorContinuity : Prop :=
  ∀ (i : Instr) (s t : State), exec i s = .next t → ¬isClocking i → opcode i ≠ 0x3 →
    integrators t.chip = integrators s.chip

/-- O46. With no input routed and the three integrators at 0 they stay 0 over any command, and the output is then the
bypass mix with the DC offset at the volume, whatever FC and RES; with MODE = 0 it is that from any state
(43_filter.md R336). -/
def Obligations.UnroutedFilterStaysAtRest : Prop :=
  (∀ (i : Instr) (s t : State), exec i s = .next t → s.chip.regs.resFilt &&& 0x0F#8 = 0#8 →
    s.chip.filt.vhp = 0#32 → s.chip.filt.vbp = 0#32 → s.chip.filt.vlp = 0#32 →
    t.chip.filt.vhp = 0#32 ∧ t.chip.filt.vbp = 0#32 ∧ t.chip.filt.vlp = 0#32) ∧
  (∀ c : Chip, c.filt.vhp = 0#32 ∧ c.filt.vbp = 0#32 ∧ c.filt.vlp = 0#32 ∨ c.regs.modeVol &&& 0x70#8 = 0#8 →
    (outSample c).toInt =
      shaped ((c.filt.vnf.toInt + (if c.modelActive = .a then -454 else 0)) *
        ((c.regs.modeVol.toNat % 16 : Nat) : Int)))

/-- O47. OUT16: the selected taps, the bypass latch and the DC offset, times the volume, shifted by 3 and saturated to
16 bits (43_filter.md R332, 44_voice_mixer.md R380). -/
def Obligations.OutputSample : Prop :=
  ∀ c : Chip, filterOutput c = outputInt c ∧ (outSample c).toInt = shaped (outputInt c)

/-- O48. The cutoff curve passes through every point of its table; between the middle two of any four consecutive points,
both ends included, it is the floor of the cubic through them with the end slopes of 43_filter.md R321, never below 0;
and every FC lies on such a segment. For the default points (R322; PRESUMED, log 8; that they leave no FC uncovered is
log 15). -/
def Obligations.SplineKnots : Prop :=
  (∀ m : ChipModel, ∀ p ∈ cutoffPoints m, cutoffHz m (BitVec.ofNat 11 p.1) = p.2) ∧
  (∀ (m : ChipModel) (p0 p1 p2 p3 : Nat × Nat) (x : Nat),
    [p0, p1, p2, p3] <:+: cutoffPoints m → p1.1 < p2.1 → p1.1 ≤ x → x ≤ p2.1 →
    (cutoffHz m (BitVec.ofNat 11 x) : Int) =
      ⌊max 0 (hermite p1 p2 (startSlope p0 p1 p2 p3) (endSlope p0 p1 p2 p3) (x : ℚ))⌋) ∧
  (∀ (m : ChipModel) (fc : BitVec 11), ∃ p0 p1 p2 p3, [p0, p1, p2, p3] <:+: cutoffPoints m ∧
    p1.1 < p2.1 ∧ p1.1 ≤ fc.toNat ∧ fc.toNat ≤ p2.1)

/-- O49. W0 is the angular cutoff in Q20, floored and saturated, evaluated in real arithmetic (43_filter.md R323). -/
def Obligations.CutoffCoefficientScaling : Prop :=
  ∀ (m : ChipModel) (fc : BitVec 11),
    ((w0Table m fc).toNat : Int) = min (2 ^ 20 - 1) ⌊2 * Real.pi * (cutoffHz m fc : ℝ) * 1.048576⌋

/-- O50. DIVQ is floor(1024 / (0.707 + res / 15)), and the boost takes its share from it (43_filter.md R324, R325). -/
def Obligations.ResonanceMapping : Prop :=
  (∀ res : BitVec 4, (divq res : Int) = ⌊(1024 : ℚ) / (0.707 + (res.toNat : ℚ) / 15)⌋) ∧
  (∀ (boost : BitVec 9) (res : BitVec 4), boost.toNat ≤ 256 →
    ((divqBoosted boost res).toNat : Int) =
      (divq res : Int) - ⌊(divq res : ℚ) * boost.toNat * res.toNat / (256 * 15)⌋)

/-! ## Rendering -/

/-- O51. RSMP in the nearest mode takes the next cycle count, clocks it and emits the output (45_chip_commands.md
R441). The lists the sample and the status are added to are log 6. -/
def Obligations.RsmpRendersOneSample : Prop :=
  ∀ s : State, s.chip.ext.renderMode = .nearest →
    exec .rsmp s =
      .next { s with
        chip := afterSample s.chip
        out := s.out ++ [outSample (afterSample s.chip)]
        results := s.results ++ [.ok] }

/-- O52. RENDER n in the nearest mode is n RSMP commands in a row, with one status: the same block and the same
samples; RENDER 0 emits nothing and changes no state (45_chip_commands.md R442). The lists of samples and
responses are log 6. -/
def Obligations.RenderIsRepeatedRsmp : Prop :=
  (∀ (n : BitVec 28) (s : State), s.chip.ext.renderMode = .nearest →
    ∃ t u, exec (.render n) s = .next t ∧ execAll (List.replicate n.toNat .rsmp) s = .next u ∧
      t.chip = u.chip ∧ t.out = u.out ∧ t.out.length = s.out.length + n.toNat ∧ t.commands = s.commands ∧
      t.results = s.results ++ [.ok]) ∧
  (∀ s : State, s.chip.ext.renderMode = .nearest → exec (.render 0#28) s = .next (done s))

/-- O53. In the linear and band-limited modes RSMP and RENDER return Unsupported with the mode, emit nothing and
change nothing (45_chip_commands.md R443, 60_exceptions.md R504; that this is a next state is log 3, and such a
run is marked by `State.noRefusedRender`). The list the response is added to is log 6. -/
def Obligations.OpenRenderModesUnsupported : Prop :=
  ∀ (s : State) (n : BitVec 28), s.chip.ext.renderMode = .linear ∨ s.chip.ext.renderMode = .bandlimited →
    exec .rsmp s = .next { s with results := s.results ++ [.unsupported s.chip.ext.renderMode] } ∧
    exec (.render n) s = .next { s with results := s.results ++ [.unsupported s.chip.ext.renderMode] } ∧
    (∀ t, exec .rsmp s = .next t → t.noRefusedRender = false)

/-! ## Extensions and faults -/

/-- O54. SETEXT writes its extension setting and nothing else, but that BOOST recomputes DIVQ from RES
(45_chip_commands.md R450 to R455). The list the status is added to is log 6. -/
def Obligations.SetExtWritesConfiguration : Prop :=
  ∀ s : State,
    (∀ d : BitVec 1, exec (.setExtDither d) s =
      .next { s with chip := { s.chip with ext := { s.chip.ext with ditherEn := d.getLsbD 0 } }
                     results := s.results ++ [.ok] }) ∧
    (∀ g : BitVec 9, exec (.setExtGain 0#2 g) s =
      .next { s with chip := { s.chip with ext := { s.chip.ext with gain := { s.chip.ext.gain with v0 := g } } }
                     results := s.results ++ [.ok] }) ∧
    (∀ g : BitVec 9, exec (.setExtGain 1#2 g) s =
      .next { s with chip := { s.chip with ext := { s.chip.ext with gain := { s.chip.ext.gain with v1 := g } } }
                     results := s.results ++ [.ok] }) ∧
    (∀ g : BitVec 9, exec (.setExtGain 2#2 g) s =
      .next { s with chip := { s.chip with ext := { s.chip.ext with gain := { s.chip.ext.gain with v2 := g } } }
                     results := s.results ++ [.ok] }) ∧
    (∀ b : BitVec 9, b.toNat ≤ 256 → exec (.setExtBoost b) s =
      .next { s with chip := { s.chip with
                       ext := { s.chip.ext with boost := b }
                       filt := { s.chip.filt with divq := divqBoosted b (s.chip.regs.resFilt.extractLsb' 4 4) } }
                     results := s.results ++ [.ok] }) ∧
    (∀ m : BitVec 3, exec (.setExtAm m) s =
      .next { s with chip := { s.chip with
                       ext := { s.chip.ext with amEn := ⟨m.getLsbD 0, m.getLsbD 1, m.getLsbD 2⟩ } }
                     results := s.results ++ [.ok] }) ∧
    exec .setExtRmodeNearest s =
      .next { s with chip := { s.chip with ext := { s.chip.ext with renderMode := .nearest } }
                     results := s.results ++ [.ok] } ∧
    exec .setExtRmodeLinear s =
      .next { s with chip := { s.chip with ext := { s.chip.ext with renderMode := .linear } }
                     results := s.results ++ [.ok] } ∧
    exec .setExtRmodeBandlimited s =
      .next { s with chip := { s.chip with ext := { s.chip.ext with renderMode := .bandlimited } }
                     results := s.results ++ [.ok] }

/-- O55. The opcodes that are no command return IllegalCommand with their word and change nothing (60_exceptions.md
R501); so do the two ill-formed SETEXT terms, which no word decodes to (log 16). That the fault is a next state is
log 2. The list the response is added to is log 6. -/
def Obligations.IllegalCommandsChangeNothing : Prop :=
  ∀ s : State,
    (∀ n : BitVec 28,
      exec (.illegalOp0 n) s = .next { s with results := s.results ++ [.illegalCommand (0x0#4 ++ n)] } ∧
      exec (.illegalOpB n) s = .next { s with results := s.results ++ [.illegalCommand (0xB#4 ++ n)] } ∧
      exec (.illegalOpC n) s = .next { s with results := s.results ++ [.illegalCommand (0xC#4 ++ n)] } ∧
      exec (.illegalOpD n) s = .next { s with results := s.results ++ [.illegalCommand (0xD#4 ++ n)] } ∧
      exec (.illegalOpE n) s = .next { s with results := s.results ++ [.illegalCommand (0xE#4 ++ n)] } ∧
      exec (.illegalOpF n) s = .next { s with results := s.results ++ [.illegalCommand (0xF#4 ++ n)] }) ∧
    (∀ g : BitVec 9, exec (.setExtGain 3#2 g) s =
      .next { s with results := s.results ++ [.illegalCommand (wordOf (.setExtGain 3#2 g))] }) ∧
    (∀ b : BitVec 9, 256 < b.toNat → exec (.setExtBoost b) s =
      .next { s with results := s.results ++ [.illegalCommand (wordOf (.setExtBoost b))] })

/-- O56. Every command returns one response; a fault's changes nothing of the block and the stream, a result comes from
RD and MON only and changes nothing either, and only RSMP and RENDER emit (60_exceptions.md R500, R502, R508; the
result port as a list is log 6, a fault as a next state log 2). -/
def Obligations.OneResponseAndFaultsChangeNothing : Prop :=
  ∀ (i : Instr) (s t : State), exec i s = .next t →
    ∃ r : Response, t.results = s.results ++ [r] ∧ t.commands = s.commands ∧
      (r.status ≠ 0 → t.chip = s.chip ∧ t.out = s.out) ∧
      (r.result ≠ none ↔ opcode i = 0x2 ∨ opcode i = 0x9) ∧
      (r.result ≠ none → t.chip = s.chip) ∧
      (∃ samples, t.out = s.out ++ samples) ∧
      (¬(opcode i = 0x7 ∨ opcode i = 0x8) → t.out = s.out)

/-- O57. What each command can write of the block, over all commands: the extension settings only SETEXT, MODEL_PENDING
only SETMODEL, the rates only SETRATE, RESID only SETRATE, RSMP, RENDER and RESET, DSTATE only clocking and RESET, the
oscillators only clocking, RESET and CONTROL writes, and LEVEL, RC, EC and EP only clocking and RESET (10_state.md R54,
R55, R57, R60 to R63). -/
def Obligations.StateWriters : Prop :=
  ∀ (i : Instr) (s t : State), exec i s = .next t →
    (opcode i ≠ 0xA → t.chip.ext = s.chip.ext) ∧
    (opcode i ≠ 0x4 → t.chip.modelPending = s.chip.modelPending) ∧
    (opcode i ≠ 0x5 → t.chip.clock.sRate = s.chip.clock.sRate ∧ t.chip.clock.cRate = s.chip.clock.cRate) ∧
    (opcode i ≠ 0x5 → opcode i ≠ 0x7 → opcode i ≠ 0x8 → opcode i ≠ 0x3 →
      t.chip.clock.resid = s.chip.clock.resid) ∧
    (¬isClocking i → opcode i ≠ 0x3 → t.chip.dstate = s.chip.dstate) ∧
    (¬isClocking i → opcode i ≠ 0x3 → ¬isControlWrite i → t.chip.osc = s.chip.osc) ∧
    (¬isClocking i → opcode i ≠ 0x3 →
      ∀ v, (t.chip.env.get v).level = (s.chip.env.get v).level ∧ (t.chip.env.get v).rc = (s.chip.env.get v).rc ∧
        (t.chip.env.get v).ec = (s.chip.env.get v).ec ∧ (t.chip.env.get v).ep = (s.chip.env.get v).ep)

/-- O58. With every extension off the filter's input is the base pipeline's: no draw, no gain, no modulation, and DIVQ
without boost (44_voice_mixer.md R377). -/
def Obligations.ExtensionsOffAreExact : Prop :=
  ∀ (c : Chip) (n : Nat), c.ext.ditherEn = false → (∀ v, c.ext.gain.get v = 256#9) →
    (∀ v, c.ext.amEn.get v = false) → c.ext.boost = 0#9 →
    (∀ v, (scaledInputs c.ext c.dstate (voiceSamples c)).get v =
      (((chipWave c v).toNat : Int) - 0x800) * ((c.env.get v).level.toNat : Int) / 128) ∧
    (filterClock n (voiceSamples c) 0 c).dstate = c.dstate ∧
    (∀ res : BitVec 4, (divqBoosted c.ext.boost res).toNat = divq res)

/-! ## The invariant -/

/-- O59. The machine after reset meets the invariant of Safety.lean. Its rates, and so that they are not 0, are log 1. -/
def Obligations.ResetMeetsInvariant : Prop := ChipInv State.reset.chip

/-- O60. Every step keeps the invariant, from every state that meets it: TEST holds an oscillator at 0 and the noise
register is otherwise not 0 (41_oscillator.md R228, R232); EC < EP, EP legal, a held level 0, RP the active nibble's
period, the gate matching the phase (42_envelope.md R272 to R282, R287); unused register bits 0, W0 and DIVQ current
(10_state.md R51, 43_filter.md R326); the rates not 0, RESID < S_RATE, DSTATE not 0 (10_state.md R63, 44_voice_mixer.md
R373). -/
def Obligations.StepKeepsInvariant : Prop :=
  ∀ s t : State, ChipInv s.chip → step s = .next t → ChipInv t.chip
end

