-- ==== Sys2Proof/Laws/Encoding.lean ====
section
/-! SUPPORT. The bits of each command format (30_encoding.md R142), and each field read back from a word of its format. -/

namespace Sys2Proof

/-! ## Bits -/

theorem bit_wordC (op : BitVec 4) (n : BitVec 28) (i : Nat) :
    (wordC op n).getLsbD i = if i < 28 then n.getLsbD i else op.getLsbD (i - 28) := by
  simpa [wordC] using BitVec.getLsbD_append (x := op) (y := n) (i := i)

theorem bit_wordZ (op : BitVec 4) (i : Nat) :
    (wordZ op).getLsbD i = if i < 28 then false else op.getLsbD (i - 28) := by
  have h := bit_wordC op 0#28 i
  simp only [BitVec.getLsbD_zero] at h
  exact h

theorem bit_wordModel (m : BitVec 1) (i : Nat) :
    (wordModel m).getLsbD i = if i < 1 then m.getLsbD i else if i - 1 < 27 then false else (4#4).getLsbD (i - 28) := by
  change ((4#4 ++ 0#27 ++ m : BitVec (4 + 27 + 1))).getLsbD i = _
  rw [BitVec.getLsbD_append, BitVec.getLsbD_append]
  simp [Nat.sub_sub]

theorem bit_wordMon (sel : BitVec 4) (i : Nat) :
    (wordMon sel).getLsbD i =
      if i < 4 then sel.getLsbD i else if i - 4 < 24 then false else (9#4).getLsbD (i - 28) := by
  change ((9#4 ++ 0#24 ++ sel : BitVec (4 + 24 + 4))).getLsbD i = _
  rw [BitVec.getLsbD_append, BitVec.getLsbD_append]
  simp [Nat.sub_sub]

theorem bit_wordWr (a : Addr) (d : Byte) (i : Nat) :
    (wordWr a d).getLsbD i =
      if i < 8 then d.getLsbD i else if i - 8 < 5 then a.getLsbD (i - 8)
      else if i - 13 < 15 then false else (1#4).getLsbD (i - 28) := by
  change ((1#4 ++ 0#15 ++ a ++ d : BitVec (4 + 15 + 5 + 8))).getLsbD i = _
  rw [BitVec.getLsbD_append, BitVec.getLsbD_append, BitVec.getLsbD_append]
  simp [Nat.sub_sub]

theorem bit_wordRd (a : Addr) (i : Nat) :
    (wordRd a).getLsbD i =
      if i < 8 then false else if i - 8 < 5 then a.getLsbD (i - 8)
      else if i - 13 < 15 then false else (2#4).getLsbD (i - 28) := by
  change ((2#4 ++ 0#15 ++ a ++ 0#8 : BitVec (4 + 15 + 5 + 8))).getLsbD i = _
  rw [BitVec.getLsbD_append, BitVec.getLsbD_append, BitVec.getLsbD_append]
  simp [Nat.sub_sub]

theorem bit_wordExt (sub : BitVec 4) (v : BitVec 2) (val : BitVec 9) (i : Nat) :
    (wordExt sub v val).getLsbD i =
      if i < 9 then val.getLsbD i else if i - 9 < 7 then false
      else if i - 16 < 2 then v.getLsbD (i - 16) else if i - 18 < 6 then false
      else if i - 24 < 4 then sub.getLsbD (i - 24) else (10#4).getLsbD (i - 28) := by
  change ((10#4 ++ sub ++ 0#6 ++ v ++ 0#7 ++ val : BitVec (4 + 4 + 6 + 2 + 7 + 9))).getLsbD i = _
  rw [BitVec.getLsbD_append, BitVec.getLsbD_append, BitVec.getLsbD_append, BitVec.getLsbD_append,
    BitVec.getLsbD_append]
  simp [Nat.sub_sub]

/-- A field whose bits are known, is known. -/
theorem field_eq {w : Word} {lo len : Nat} {x : BitVec len} (h : ∀ i, i < len → w.getLsbD (lo + i) = x.getLsbD i) :
    w.extractLsb' lo len = x := by
  apply BitVec.eq_of_getLsbD_eq
  intro i hi
  simp [hi, h i hi]

/-! ## Opcodes -/

@[simp] theorem opField_wordC (op : BitVec 4) (n : BitVec 28) : opField (wordC op n) = op :=
  field_eq fun i hi => by rw [bit_wordC, if_neg (by omega)]; congr 1; omega

@[simp] theorem opField_wordZ (op : BitVec 4) : opField (wordZ op) = op :=
  field_eq fun i hi => by rw [bit_wordZ, if_neg (by omega)]; congr 1; omega

@[simp] theorem opField_wordModel (m : BitVec 1) : opField (wordModel m) = 0x4#4 :=
  field_eq fun i hi => by rw [bit_wordModel, if_neg (by omega), if_neg (by omega)]; congr 1; omega

@[simp] theorem opField_wordMon (sel : BitVec 4) : opField (wordMon sel) = 0x9#4 :=
  field_eq fun i hi => by rw [bit_wordMon, if_neg (by omega), if_neg (by omega)]; congr 1; omega

@[simp] theorem opField_wordWr (a : Addr) (d : Byte) : opField (wordWr a d) = 0x1#4 :=
  field_eq fun i hi => by
    rw [bit_wordWr, if_neg (by omega), if_neg (by omega), if_neg (by omega)]; congr 1; omega

@[simp] theorem opField_wordRd (a : Addr) : opField (wordRd a) = 0x2#4 :=
  field_eq fun i hi => by
    rw [bit_wordRd, if_neg (by omega), if_neg (by omega), if_neg (by omega)]; congr 1; omega

@[simp] theorem opField_wordExt (sub : BitVec 4) (v : BitVec 2) (val : BitVec 9) :
    opField (wordExt sub v val) = 0xA#4 :=
  field_eq fun i hi => by
    rw [bit_wordExt, if_neg (by omega), if_neg (by omega), if_neg (by omega), if_neg (by omega), if_neg (by omega)]
    congr 1; omega

/-! ## Operand fields -/

@[simp] theorem lowField_wordC (op : BitVec 4) (n : BitVec 28) : lowField (wordC op n) = n :=
  field_eq fun i hi => by rw [bit_wordC, if_pos (by omega)]; congr 1; omega

@[simp] theorem lowField_wordZ (op : BitVec 4) : lowField (wordZ op) = 0#28 :=
  field_eq fun i hi => by rw [bit_wordZ, if_pos (by omega)]; simp

@[simp] theorem addrField_wordWr (a : Addr) (d : Byte) : addrField (wordWr a d) = a :=
  field_eq fun i hi => by rw [bit_wordWr, if_neg (by omega), if_pos (by omega)]; congr 1; omega

@[simp] theorem dataField_wordWr (a : Addr) (d : Byte) : dataField (wordWr a d) = d :=
  field_eq fun i hi => by rw [bit_wordWr, if_pos (by omega)]; congr 1; omega

@[simp] theorem addrField_wordRd (a : Addr) : addrField (wordRd a) = a :=
  field_eq fun i hi => by rw [bit_wordRd, if_neg (by omega), if_pos (by omega)]; congr 1; omega

@[simp] theorem selField_wordMon (sel : BitVec 4) : selField (wordMon sel) = sel :=
  field_eq fun i hi => by rw [bit_wordMon, if_pos (by omega)]; congr 1; omega

@[simp] theorem subField_wordExt (sub : BitVec 4) (v : BitVec 2) (val : BitVec 9) :
    subField (wordExt sub v val) = sub :=
  field_eq fun i hi => by
    rw [bit_wordExt, if_neg (by omega), if_neg (by omega), if_neg (by omega), if_neg (by omega), if_pos (by omega)]
    congr 1; omega

@[simp] theorem voiceField_wordExt (sub : BitVec 4) (v : BitVec 2) (val : BitVec 9) :
    voiceField (wordExt sub v val) = v :=
  field_eq fun i hi => by
    rw [bit_wordExt, if_neg (by omega), if_neg (by omega), if_pos (by omega)]; congr 1; omega

@[simp] theorem valField_wordExt (sub : BitVec 4) (v : BitVec 2) (val : BitVec 9) :
    valField (wordExt sub v val) = val :=
  field_eq fun i hi => by rw [bit_wordExt, if_pos (by omega)]; congr 1; omega

end Sys2Proof
end

