-- ==== Sys2Proof/Laws/Voices.lean ====
section
/-! SUPPORT. The array of three voices: reading after a write, and repetition. -/

namespace Sys2Proof

@[simp] theorem get_set_same {α : Type} (p : PerVoice α) (v : VoiceId) (x : α) : (p.set v x).get v = x := by
  cases v <;> rfl

theorem get_set_ne {α : Type} (p : PerVoice α) {v u : VoiceId} (h : u ≠ v) (x : α) :
    (p.set v x).get u = p.get u := by
  cases v <;> cases u <;> first | rfl | exact absurd rfl h

theorem get_set {α : Type} (p : PerVoice α) (v u : VoiceId) (x : α) :
    (p.set v x).get u = if u = v then x else p.get u := by
  cases v <;> cases u <;> rfl

@[simp] theorem get_ofFn {α : Type} (f : VoiceId → α) (v : VoiceId) : (PerVoice.ofFn f).get v = f v := by
  cases v <;> rfl

theorem perVoice_ext {α : Type} {p q : PerVoice α} (h : ∀ v, p.get v = q.get v) : p = q := by
  cases p; cases q
  have h0 := h .v0
  have h1 := h .v1
  have h2 := h .v2
  simp only [PerVoice.get] at h0 h1 h2
  simp [h0, h1, h2]

@[simp] theorem set_get_self {α : Type} (p : PerVoice α) (v : VoiceId) : p.set v (p.get v) = p := by
  cases v <;> rfl

namespace Machine

@[simp] theorem repeatTimes_zero {α : Type} (f : α → α) (a : α) : repeatTimes f 0 a = a := rfl

theorem repeatTimes_succ {α : Type} (f : α → α) (n : Nat) (a : α) :
    repeatTimes f (n + 1) a = repeatTimes f n (f a) := rfl

theorem repeatTimes_add {α : Type} (f : α → α) (m n : Nat) (a : α) :
    repeatTimes f (m + n) a = repeatTimes f n (repeatTimes f m a) := by
  induction m generalizing a with
  | zero => simp
  | succ m ih => rw [Nat.succ_add, repeatTimes_succ, repeatTimes_succ, ih]

theorem repeatTimes_last {α : Type} (f : α → α) (n : Nat) (a : α) :
    repeatTimes f (n + 1) a = f (repeatTimes f n a) := by
  rw [repeatTimes_add f n 1]; rfl

/-- A property one application keeps, n applications keep. -/
theorem repeatTimes_keeps {α : Type} {f : α → α} {P : α → Prop} (h : ∀ a, P a → P (f a)) (n : Nat) {a : α}
    (ha : P a) : P (repeatTimes f n a) := by
  induction n generalizing a with
  | zero => exact ha
  | succ n ih => exact ih (h a ha)

/-- A part one application leaves alone, n applications leave alone. -/
theorem repeatTimes_part {α β : Type} {f : α → α} (g : α → β) (h : ∀ a, g (f a) = g a) (n : Nat) (a : α) :
    g (repeatTimes f n a) = g a := by
  induction n generalizing a with
  | zero => rfl
  | succ n ih => rw [repeatTimes_succ, ih, h]

end Machine

end Sys2Proof
end

