-- ==== Sys2Proof/Laws/Registers.lean ====
section
/-! SUPPORT. The register file: reading after a write, and the address map. -/

namespace Sys2Proof.Machine

@[simp] theorem getReg_setReg_same (f : RegFile) (r : RegName) (d : Byte) : getReg (setReg f r d) r = d := by
  cases r <;> simp [getReg, setReg]

theorem getReg_setReg_ne (f : RegFile) {r q : RegName} (h : q ≠ r) (d : Byte) :
    getReg (setReg f r d) q = getReg f q := by
  cases r <;> cases q <;> first
    | rfl
    | exact absurd rfl h
    | (simp only [getReg, setReg, get_set]; split <;> simp_all)

/-- Two register files with the same 25 bytes are equal. -/
theorem regFile_ext {f g : RegFile} (h : ∀ r, getReg f r = getReg g r) : f = g := by
  have hv : f.voice = g.voice := by
    apply perVoice_ext
    intro v
    have h0 := h (.freqLo v)
    have h1 := h (.freqHi v)
    have h2 := h (.pwLo v)
    have h3 := h (.pwHi v)
    have h4 := h (.control v)
    have h5 := h (.attackDecay v)
    have h6 := h (.sustainRelease v)
    simp only [getReg] at h0 h1 h2 h3 h4 h5 h6
    revert h0 h1 h2 h3 h4 h5 h6
    generalize f.voice.get v = a
    generalize g.voice.get v = b
    cases a; cases b
    simp only [VoiceRegs.mk.injEq]
    intros
    simp_all
  have h7 := h .fcLo
  have h8 := h .fcHi
  have h9 := h .resFilt
  have h10 := h .modeVol
  simp only [getReg] at h7 h8 h9 h10
  cases f; cases g
  simp_all

/-- A register is found at its address. -/
@[simp] theorem regAt_regAddr (r : RegName) : regAt (regAddr r) = some r := by
  cases r <;> (try rename_i v; cases v) <;> rfl

/-- The register at an address has that address. -/
theorem regAddr_of_regAt {a : Addr} {r : RegName} (h : regAt a = some r) : regAddr r = a := by
  revert h r
  revert a
  decide +kernel

@[simp] theorem setReg_voice_other (f : RegFile) (d : Byte) :
    (setReg f .fcLo d).voice = f.voice ∧ (setReg f .fcHi d).voice = f.voice ∧
      (setReg f .resFilt d).voice = f.voice ∧ (setReg f .modeVol d).voice = f.voice :=
  ⟨rfl, rfl, rfl, rfl⟩

end Sys2Proof.Machine
end

