-- ==== Sys2Proof/Machine/Standalone.lean ====
section
/-! DEFINITION. The unit rules driven outside the Chip: the standalone oscillator and voice, whose sync source is the
oscillator itself (41_oscillator.md R226, 44_voice_mixer.md R381). No command reaches them (00_scope.md R4); the
standalone filter is `filterClock` with the host's inputs (43_filter.md R339), the standalone envelope is `envStep`. -/

namespace Sys2Proof.Machine

/-- One cycle of a standalone oscillator: SRC(v) = v (R226). -/
def standaloneOscStep (r : VoiceRegs) (o : Osc) : Osc := oscStep r (oscEvent r o) o

/-- WAVE of a standalone oscillator (R226, R240). -/
def standaloneWave (m : ChipModel) (r : VoiceRegs) (o : Osc) : BitVec 12 := oscWave m r (o.acc.getLsbD 23) o

/-- VS of a standalone voice (R381); amplitude modulation is by the voice itself (R371). -/
def standaloneVoiceSample (m : ChipModel) (am : Bool) (r : VoiceRegs) (o : Osc) (e : Env) : Int :=
  voiceSample am (standaloneWave m r o) e.level (standaloneWave m r o)

end Sys2Proof.Machine
end

