-- ==== Sys2Proof/Laws/State.lean ====
section
/-! SUPPORT. One lemma for each field of each update, so that no proof unfolds a record update. -/

namespace Sys2Proof.Machine

@[simp] theorem finish_chip (c : Chip) (s : State) :
    (finish c s).chip = c := rfl

@[simp] theorem finish_commands (c : Chip) (s : State) :
    (finish c s).commands = s.commands := rfl

@[simp] theorem finish_out (c : Chip) (s : State) :
    (finish c s).out = s.out := rfl

@[simp] theorem finish_results (c : Chip) (s : State) :
    (finish c s).results = s.results ++ [.ok] := rfl

@[simp] theorem answer_chip (r : Word) (s : State) :
    (answer r s).chip = s.chip := rfl

@[simp] theorem answer_commands (r : Word) (s : State) :
    (answer r s).commands = s.commands := rfl

@[simp] theorem answer_out (r : Word) (s : State) :
    (answer r s).out = s.out := rfl

@[simp] theorem answer_results (r : Word) (s : State) :
    (answer r s).results = s.results ++ [.okResult r] := rfl

@[simp] theorem raise_chip (f : Response) (s : State) :
    (raise f s).chip = s.chip := rfl

@[simp] theorem raise_commands (f : Response) (s : State) :
    (raise f s).commands = s.commands := rfl

@[simp] theorem raise_out (f : Response) (s : State) :
    (raise f s).out = s.out := rfl

@[simp] theorem raise_results (f : Response) (s : State) :
    (raise f s).results = s.results ++ [f] := rfl

@[simp] theorem raiseIllegal_chip (w : Word) (s : State) :
    (raiseIllegal w s).chip = s.chip := rfl

@[simp] theorem raiseIllegal_commands (w : Word) (s : State) :
    (raiseIllegal w s).commands = s.commands := rfl

@[simp] theorem raiseIllegal_out (w : Word) (s : State) :
    (raiseIllegal w s).out = s.out := rfl

@[simp] theorem raiseIllegal_results (w : Word) (s : State) :
    (raiseIllegal w s).results = s.results ++ [.illegalCommand w] := rfl

@[simp] theorem finishEmitting_chip (c : Chip) (xs : List Sample) (s : State) :
    (finishEmitting c xs s).chip = c := rfl

@[simp] theorem finishEmitting_commands (c : Chip) (xs : List Sample) (s : State) :
    (finishEmitting c xs s).commands = s.commands := rfl

@[simp] theorem finishEmitting_out (c : Chip) (xs : List Sample) (s : State) :
    (finishEmitting c xs s).out = s.out ++ xs := rfl

@[simp] theorem finishEmitting_results (c : Chip) (xs : List Sample) (s : State) :
    (finishEmitting c xs s).results = s.results ++ [.ok] := rfl

@[simp] theorem takeWords_chip (k : Nat) (s : State) :
    (takeWords k s).chip = s.chip := rfl

@[simp] theorem takeWords_commands (k : Nat) (s : State) :
    (takeWords k s).commands = s.commands.drop k := rfl

@[simp] theorem takeWords_out (k : Nat) (s : State) :
    (takeWords k s).out = s.out := rfl

@[simp] theorem takeWords_results (k : Nat) (s : State) :
    (takeWords k s).results = s.results := rfl

@[simp] theorem rejectWord_chip (w : Word) (s : State) :
    (rejectWord w s).chip = s.chip := rfl

@[simp] theorem rejectWord_commands (w : Word) (s : State) :
    (rejectWord w s).commands = s.commands.drop (commandLength w) := rfl

@[simp] theorem rejectWord_out (w : Word) (s : State) :
    (rejectWord w s).out = s.out := rfl

@[simp] theorem rejectWord_results (w : Word) (s : State) :
    (rejectWord w s).results = s.results ++ [.illegalCommand w] := rfl

@[simp] theorem raiseIllegalSelector_chip (w : Word) (s : State) :
    (raiseIllegalSelector w s).chip = s.chip := rfl

@[simp] theorem raiseIllegalSelector_commands (w : Word) (s : State) :
    (raiseIllegalSelector w s).commands = s.commands := rfl

@[simp] theorem raiseIllegalSelector_out (w : Word) (s : State) :
    (raiseIllegalSelector w s).out = s.out := rfl

@[simp] theorem raiseIllegalSelector_results (w : Word) (s : State) :
    (raiseIllegalSelector w s).results = s.results ++ [.illegalSelector w (selField w)] := rfl

@[simp] theorem rejectSelector_chip (w : Word) (s : State) :
    (rejectSelector w s).chip = s.chip := rfl

@[simp] theorem rejectSelector_commands (w : Word) (s : State) :
    (rejectSelector w s).commands = s.commands.drop (commandLength w) := rfl

@[simp] theorem rejectSelector_out (w : Word) (s : State) :
    (rejectSelector w s).out = s.out := rfl

@[simp] theorem rejectSelector_results (w : Word) (s : State) :
    (rejectSelector w s).results = s.results ++ [.illegalSelector w (selField w)] := rfl

@[simp] theorem placeCommand_chip (ws : List Word) (s : State) :
    (placeCommand ws s).chip = s.chip := rfl

@[simp] theorem placeCommand_commands (ws : List Word) (s : State) :
    (placeCommand ws s).commands = ws ++ s.commands := rfl

@[simp] theorem placeCommand_out (ws : List Word) (s : State) :
    (placeCommand ws s).out = s.out := rfl

@[simp] theorem placeCommand_results (ws : List Word) (s : State) :
    (placeCommand ws s).results = s.results := rfl

@[simp] theorem send_chip (ws : List Word) (s : State) :
    (send ws s).chip = s.chip := rfl

@[simp] theorem send_commands (ws : List Word) (s : State) :
    (send ws s).commands = s.commands ++ ws := rfl

@[simp] theorem send_out (ws : List Word) (s : State) :
    (send ws s).out = s.out := rfl

@[simp] theorem send_results (ws : List Word) (s : State) :
    (send ws s).results = s.results := rfl

@[simp] theorem storeReg_regs (r : RegName) (d : Byte) (c : Chip) :
    (storeReg r d c).regs = setReg c.regs r d := rfl

@[simp] theorem storeReg_osc (r : RegName) (d : Byte) (c : Chip) :
    (storeReg r d c).osc = c.osc := rfl

@[simp] theorem storeReg_env (r : RegName) (d : Byte) (c : Chip) :
    (storeReg r d c).env = c.env := rfl

@[simp] theorem storeReg_filt (r : RegName) (d : Byte) (c : Chip) :
    (storeReg r d c).filt = c.filt := rfl

@[simp] theorem storeReg_modelPending (r : RegName) (d : Byte) (c : Chip) :
    (storeReg r d c).modelPending = c.modelPending := rfl

@[simp] theorem storeReg_modelActive (r : RegName) (d : Byte) (c : Chip) :
    (storeReg r d c).modelActive = c.modelActive := rfl

@[simp] theorem storeReg_ext (r : RegName) (d : Byte) (c : Chip) :
    (storeReg r d c).ext = c.ext := rfl

@[simp] theorem storeReg_dstate (r : RegName) (d : Byte) (c : Chip) :
    (storeReg r d c).dstate = c.dstate := rfl

@[simp] theorem storeReg_clock (r : RegName) (d : Byte) (c : Chip) :
    (storeReg r d c).clock = c.clock := rfl

@[simp] theorem setOsc_regs (v : VoiceId) (o : Osc) (c : Chip) :
    (setOsc v o c).regs = c.regs := rfl

@[simp] theorem setOsc_osc (v : VoiceId) (o : Osc) (c : Chip) :
    (setOsc v o c).osc = c.osc.set v o := rfl

@[simp] theorem setOsc_env (v : VoiceId) (o : Osc) (c : Chip) :
    (setOsc v o c).env = c.env := rfl

@[simp] theorem setOsc_filt (v : VoiceId) (o : Osc) (c : Chip) :
    (setOsc v o c).filt = c.filt := rfl

@[simp] theorem setOsc_modelPending (v : VoiceId) (o : Osc) (c : Chip) :
    (setOsc v o c).modelPending = c.modelPending := rfl

@[simp] theorem setOsc_modelActive (v : VoiceId) (o : Osc) (c : Chip) :
    (setOsc v o c).modelActive = c.modelActive := rfl

@[simp] theorem setOsc_ext (v : VoiceId) (o : Osc) (c : Chip) :
    (setOsc v o c).ext = c.ext := rfl

@[simp] theorem setOsc_dstate (v : VoiceId) (o : Osc) (c : Chip) :
    (setOsc v o c).dstate = c.dstate := rfl

@[simp] theorem setOsc_clock (v : VoiceId) (o : Osc) (c : Chip) :
    (setOsc v o c).clock = c.clock := rfl

@[simp] theorem setEnv_regs (v : VoiceId) (e : Env) (c : Chip) :
    (setEnv v e c).regs = c.regs := rfl

@[simp] theorem setEnv_osc (v : VoiceId) (e : Env) (c : Chip) :
    (setEnv v e c).osc = c.osc := rfl

@[simp] theorem setEnv_env (v : VoiceId) (e : Env) (c : Chip) :
    (setEnv v e c).env = c.env.set v e := rfl

@[simp] theorem setEnv_filt (v : VoiceId) (e : Env) (c : Chip) :
    (setEnv v e c).filt = c.filt := rfl

@[simp] theorem setEnv_modelPending (v : VoiceId) (e : Env) (c : Chip) :
    (setEnv v e c).modelPending = c.modelPending := rfl

@[simp] theorem setEnv_modelActive (v : VoiceId) (e : Env) (c : Chip) :
    (setEnv v e c).modelActive = c.modelActive := rfl

@[simp] theorem setEnv_ext (v : VoiceId) (e : Env) (c : Chip) :
    (setEnv v e c).ext = c.ext := rfl

@[simp] theorem setEnv_dstate (v : VoiceId) (e : Env) (c : Chip) :
    (setEnv v e c).dstate = c.dstate := rfl

@[simp] theorem setEnv_clock (v : VoiceId) (e : Env) (c : Chip) :
    (setEnv v e c).clock = c.clock := rfl

@[simp] theorem copyModel_regs (c : Chip) :
    (copyModel c).regs = c.regs := rfl

@[simp] theorem copyModel_osc (c : Chip) :
    (copyModel c).osc = c.osc := rfl

@[simp] theorem copyModel_env (c : Chip) :
    (copyModel c).env = c.env := rfl

@[simp] theorem copyModel_filt (c : Chip) :
    (copyModel c).filt = c.filt := rfl

@[simp] theorem copyModel_modelPending (c : Chip) :
    (copyModel c).modelPending = c.modelPending := rfl

@[simp] theorem copyModel_modelActive (c : Chip) :
    (copyModel c).modelActive = c.modelPending := rfl

@[simp] theorem copyModel_ext (c : Chip) :
    (copyModel c).ext = c.ext := rfl

@[simp] theorem copyModel_dstate (c : Chip) :
    (copyModel c).dstate = c.dstate := rfl

@[simp] theorem copyModel_clock (c : Chip) :
    (copyModel c).clock = c.clock := rfl

@[simp] theorem setModel_regs (m : ChipModel) (c : Chip) :
    (setModel m c).regs = c.regs := rfl

@[simp] theorem setModel_osc (m : ChipModel) (c : Chip) :
    (setModel m c).osc = c.osc := rfl

@[simp] theorem setModel_env (m : ChipModel) (c : Chip) :
    (setModel m c).env = c.env := rfl

@[simp] theorem setModel_filt (m : ChipModel) (c : Chip) :
    (setModel m c).filt = c.filt := rfl

@[simp] theorem setModel_modelPending (m : ChipModel) (c : Chip) :
    (setModel m c).modelPending = m := rfl

@[simp] theorem setModel_modelActive (m : ChipModel) (c : Chip) :
    (setModel m c).modelActive = c.modelActive := rfl

@[simp] theorem setModel_ext (m : ChipModel) (c : Chip) :
    (setModel m c).ext = c.ext := rfl

@[simp] theorem setModel_dstate (m : ChipModel) (c : Chip) :
    (setModel m c).dstate = c.dstate := rfl

@[simp] theorem setModel_clock (m : ChipModel) (c : Chip) :
    (setModel m c).clock = c.clock := rfl

@[simp] theorem setExt_regs (e : Ext) (c : Chip) :
    (setExt e c).regs = c.regs := rfl

@[simp] theorem setExt_osc (e : Ext) (c : Chip) :
    (setExt e c).osc = c.osc := rfl

@[simp] theorem setExt_env (e : Ext) (c : Chip) :
    (setExt e c).env = c.env := rfl

@[simp] theorem setExt_filt (e : Ext) (c : Chip) :
    (setExt e c).filt = c.filt := rfl

@[simp] theorem setExt_modelPending (e : Ext) (c : Chip) :
    (setExt e c).modelPending = c.modelPending := rfl

@[simp] theorem setExt_modelActive (e : Ext) (c : Chip) :
    (setExt e c).modelActive = c.modelActive := rfl

@[simp] theorem setExt_ext (e : Ext) (c : Chip) :
    (setExt e c).ext = e := rfl

@[simp] theorem setExt_dstate (e : Ext) (c : Chip) :
    (setExt e c).dstate = c.dstate := rfl

@[simp] theorem setExt_clock (e : Ext) (c : Chip) :
    (setExt e c).clock = c.clock := rfl

@[simp] theorem recompute_regs (c : Chip) :
    (recompute c).regs = c.regs := rfl

@[simp] theorem recompute_osc (c : Chip) :
    (recompute c).osc = c.osc := rfl

@[simp] theorem recompute_env (c : Chip) :
    (recompute c).env = c.env := rfl

@[simp] theorem recompute_filt (c : Chip) :
    (recompute c).filt = { c.filt with w0 := w0Table c.modelActive (fcOf c.regs), divq := divqBoosted c.ext.boost (resOf c.regs) } := rfl

@[simp] theorem recompute_modelPending (c : Chip) :
    (recompute c).modelPending = c.modelPending := rfl

@[simp] theorem recompute_modelActive (c : Chip) :
    (recompute c).modelActive = c.modelActive := rfl

@[simp] theorem recompute_ext (c : Chip) :
    (recompute c).ext = c.ext := rfl

@[simp] theorem recompute_dstate (c : Chip) :
    (recompute c).dstate = c.dstate := rfl

@[simp] theorem recompute_clock (c : Chip) :
    (recompute c).clock = c.clock := rfl

@[simp] theorem recomputeDivq_regs (c : Chip) :
    (recomputeDivq c).regs = c.regs := rfl

@[simp] theorem recomputeDivq_osc (c : Chip) :
    (recomputeDivq c).osc = c.osc := rfl

@[simp] theorem recomputeDivq_env (c : Chip) :
    (recomputeDivq c).env = c.env := rfl

@[simp] theorem recomputeDivq_filt (c : Chip) :
    (recomputeDivq c).filt = { c.filt with divq := divqBoosted c.ext.boost (resOf c.regs) } := rfl

@[simp] theorem recomputeDivq_modelPending (c : Chip) :
    (recomputeDivq c).modelPending = c.modelPending := rfl

@[simp] theorem recomputeDivq_modelActive (c : Chip) :
    (recomputeDivq c).modelActive = c.modelActive := rfl

@[simp] theorem recomputeDivq_ext (c : Chip) :
    (recomputeDivq c).ext = c.ext := rfl

@[simp] theorem recomputeDivq_dstate (c : Chip) :
    (recomputeDivq c).dstate = c.dstate := rfl

@[simp] theorem recomputeDivq_clock (c : Chip) :
    (recomputeDivq c).clock = c.clock := rfl

@[simp] theorem chipCycle_regs (c : Chip) :
    (chipCycle c).regs = c.regs := rfl

@[simp] theorem chipCycle_osc (c : Chip) :
    (chipCycle c).osc = oscCycle syncSource c.regs.voice c.osc := rfl

@[simp] theorem chipCycle_env (c : Chip) :
    (chipCycle c).env = envCycle c.regs.voice c.env := rfl

@[simp] theorem chipCycle_filt (c : Chip) :
    (chipCycle c).filt = c.filt := rfl

@[simp] theorem chipCycle_modelPending (c : Chip) :
    (chipCycle c).modelPending = c.modelPending := rfl

@[simp] theorem chipCycle_modelActive (c : Chip) :
    (chipCycle c).modelActive = c.modelActive := rfl

@[simp] theorem chipCycle_ext (c : Chip) :
    (chipCycle c).ext = c.ext := rfl

@[simp] theorem chipCycle_dstate (c : Chip) :
    (chipCycle c).dstate = c.dstate := rfl

@[simp] theorem chipCycle_clock (c : Chip) :
    (chipCycle c).clock = c.clock := rfl

@[simp] theorem filterClock_regs (n : Nat) (vs : PerVoice Int) (e : Int) (c : Chip) :
    (filterClock n vs e c).regs = c.regs := rfl

@[simp] theorem filterClock_osc (n : Nat) (vs : PerVoice Int) (e : Int) (c : Chip) :
    (filterClock n vs e c).osc = c.osc := rfl

@[simp] theorem filterClock_env (n : Nat) (vs : PerVoice Int) (e : Int) (c : Chip) :
    (filterClock n vs e c).env = c.env := rfl

@[simp] theorem filterClock_modelPending (n : Nat) (vs : PerVoice Int) (e : Int) (c : Chip) :
    (filterClock n vs e c).modelPending = c.modelPending := rfl

@[simp] theorem filterClock_modelActive (n : Nat) (vs : PerVoice Int) (e : Int) (c : Chip) :
    (filterClock n vs e c).modelActive = c.modelActive := rfl

@[simp] theorem filterClock_ext (n : Nat) (vs : PerVoice Int) (e : Int) (c : Chip) :
    (filterClock n vs e c).ext = c.ext := rfl

@[simp] theorem filterClock_dstate (n : Nat) (vs : PerVoice Int) (e : Int) (c : Chip) :
    (filterClock n vs e c).dstate = ditherState c.ext.ditherEn c.dstate := rfl

@[simp] theorem filterClock_clock (n : Nat) (vs : PerVoice Int) (e : Int) (c : Chip) :
    (filterClock n vs e c).clock = c.clock := rfl

@[simp] theorem filterHalf_regs (n : Nat) (c : Chip) :
    (filterHalf n c).regs = c.regs := rfl

@[simp] theorem filterHalf_osc (n : Nat) (c : Chip) :
    (filterHalf n c).osc = c.osc := rfl

@[simp] theorem filterHalf_env (n : Nat) (c : Chip) :
    (filterHalf n c).env = c.env := rfl

@[simp] theorem filterHalf_modelPending (n : Nat) (c : Chip) :
    (filterHalf n c).modelPending = c.modelPending := rfl

@[simp] theorem filterHalf_modelActive (n : Nat) (c : Chip) :
    (filterHalf n c).modelActive = c.modelActive := rfl

@[simp] theorem filterHalf_ext (n : Nat) (c : Chip) :
    (filterHalf n c).ext = c.ext := rfl

@[simp] theorem filterHalf_dstate (n : Nat) (c : Chip) :
    (filterHalf n c).dstate = ditherState c.ext.ditherEn c.dstate := rfl

@[simp] theorem filterHalf_clock (n : Nat) (c : Chip) :
    (filterHalf n c).clock = c.clock := rfl

@[simp] theorem resetBody_regs (c : Chip) :
    (c.resetBody).regs = RegFile.reset := rfl

@[simp] theorem resetBody_osc (c : Chip) :
    (c.resetBody).osc = ⟨Osc.reset, Osc.reset, Osc.reset⟩ := rfl

@[simp] theorem resetBody_env (c : Chip) :
    (c.resetBody).env = ⟨Env.reset, Env.reset, Env.reset⟩ := rfl

@[simp] theorem resetBody_filt (c : Chip) :
    (c.resetBody).filt = Filt.reset c.modelPending c.ext.boost := rfl

@[simp] theorem resetBody_modelPending (c : Chip) :
    (c.resetBody).modelPending = c.modelPending := rfl

@[simp] theorem resetBody_modelActive (c : Chip) :
    (c.resetBody).modelActive = c.modelPending := rfl

@[simp] theorem resetBody_ext (c : Chip) :
    (c.resetBody).ext = c.ext := rfl

@[simp] theorem resetBody_dstate (c : Chip) :
    (c.resetBody).dstate = ditherSeed := rfl

@[simp] theorem resetBody_clock (c : Chip) :
    (c.resetBody).clock = { c.clock with resid := 0#32 } := rfl

@[simp] theorem clockAdvance_sRate (k : ClockAcc) :
    (clockAdvance k).sRate = k.sRate := rfl

@[simp] theorem clockAdvance_cRate (k : ClockAcc) :
    (clockAdvance k).cRate = k.cRate := rfl

@[simp] theorem clockAdvance_resid (k : ClockAcc) :
    (clockAdvance k).resid = BitVec.ofNat 32 (residAfter k) := rfl

@[simp] theorem subStep_vnf (vi : Int) (f : Filt) (dt : Nat) :
    (subStep vi f dt).vnf = f.vnf := rfl

@[simp] theorem subStep_w0 (vi : Int) (f : Filt) (dt : Nat) :
    (subStep vi f dt).w0 = f.w0 := rfl

@[simp] theorem subStep_divq (vi : Int) (f : Filt) (dt : Nat) :
    (subStep vi f dt).divq = f.divq := rfl

end Sys2Proof.Machine
end

