-- ==== Sys2Proof/Laws/Ops.lean ====
section
/-! SUPPORT. For each shared operation, once, everything it can do. -/

namespace Sys2Proof.Machine

/-- A mapped write answers next, and with what. -/
theorem writeCommand_next {r : RegName} {d : Byte} {s t : State} (h : writeCommand r d s = .next t) :
    t = finish (regWrite r d s.chip) s := by
  simpa [writeCommand] using h.symm

/-- An unmapped write answers next with the block unchanged. -/
theorem unmappedWrite_next {s t : State} (h : unmappedWrite s = .next t) : t = finish s.chip s := by
  simpa [unmappedWrite] using h.symm

/-- What a mapped write leaves of the block: everything but the registers, one oscillator or envelope, the active model
and the coefficients. -/
theorem regWrite_frame (r : RegName) (d : Byte) (c : Chip) :
    (regWrite r d c).modelPending = c.modelPending ∧ (regWrite r d c).ext = c.ext ∧
      (regWrite r d c).dstate = c.dstate ∧ (regWrite r d c).clock = c.clock ∧
      (regWrite r d c).filt.vhp = c.filt.vhp ∧ (regWrite r d c).filt.vbp = c.filt.vbp ∧
      (regWrite r d c).filt.vlp = c.filt.vlp ∧ (regWrite r d c).filt.vnf = c.filt.vnf := by
  cases r <;> exact ⟨rfl, rfl, rfl, rfl, rfl, rfl, rfl, rfl⟩

/-- The registers after a mapped write: the masked byte stored. -/
theorem regWrite_regs (r : RegName) (d : Byte) (c : Chip) :
    (regWrite r d c).regs = setReg c.regs r (d &&& regMask r) := by
  cases r <;> rfl

/-- The active model after a mapped write. -/
theorem regWrite_modelActive (r : RegName) (d : Byte) (c : Chip) :
    (regWrite r d c).modelActive = c.modelPending := by
  cases r <;> rfl

/-- The oscillators after a mapped write: only a control write touches one. -/
theorem regWrite_osc (r : RegName) (d : Byte) (c : Chip) :
    (regWrite r d c).osc =
      match r with
      | .control v => c.osc.set v (oscWriteControl (c.regs.voice.get v).control (d &&& 0xFF#8) (c.osc.get v))
      | _ => c.osc := by
  cases r <;> rfl

/-- A mapped write leaves the oscillator of a voice whose CONTROL it does not write. -/
theorem regWrite_osc_other {r : RegName} {u : VoiceId} (h : r ≠ .control u) (d : Byte) (c : Chip) :
    (regWrite r d c).osc.get u = c.osc.get u := by
  cases r with
  | control v =>
    have hu : u ≠ v := fun e => h (by rw [e])
    exact get_set_ne _ hu _
  | _ => rfl

/-- A mapped write leaves the envelope of a voice whose CONTROL, ATTACK_DECAY and SUSTAIN_RELEASE it does not write. -/
theorem regWrite_env_other {r : RegName} {u : VoiceId} (h1 : r ≠ .control u) (h2 : r ≠ .attackDecay u)
    (h3 : r ≠ .sustainRelease u) (d : Byte) (c : Chip) : (regWrite r d c).env.get u = c.env.get u := by
  cases r with
  | control v =>
    have hu : u ≠ v := fun e => h1 (by rw [e])
    exact get_set_ne _ hu _
  | attackDecay v =>
    have hu : u ≠ v := fun e => h2 (by rw [e])
    exact get_set_ne _ hu _
  | sustainRelease v =>
    have hu : u ≠ v := fun e => h3 (by rw [e])
    exact get_set_ne _ hu _
  | _ => rfl

/-- The oscillator and the envelope of the voice whose CONTROL is written. -/
theorem regWrite_control (v : VoiceId) (d : Byte) (c : Chip) :
    (regWrite (.control v) d c).osc.get v =
        oscWriteControl (c.regs.voice.get v).control (d &&& 0xFF#8) (c.osc.get v) ∧
      (regWrite (.control v) d c).env.get v =
        envWriteControl (c.regs.voice.get v).control (d &&& 0xFF#8) (c.regs.voice.get v).attackDecay
          (c.regs.voice.get v).sustainRelease (c.env.get v) :=
  ⟨get_set_same _ _ _, get_set_same _ _ _⟩

/-- The envelope of the voice whose rates are written. -/
theorem regWrite_rates (v : VoiceId) (d : Byte) (c : Chip) :
    (regWrite (.attackDecay v) d c).env.get v = envWriteAttackDecay (d &&& 0xFF#8) (c.env.get v) ∧
      (regWrite (.sustainRelease v) d c).env.get v = envWriteSustainRelease (d &&& 0xFF#8) (c.env.get v) :=
  ⟨get_set_same _ _ _, get_set_same _ _ _⟩

/-- W0 and DIVQ after a mapped write: current (43_filter.md R326). -/
theorem regWrite_coefficients (r : RegName) (d : Byte) (c : Chip) :
    (regWrite r d c).filt.w0 = w0Table c.modelPending (fcOf (regWrite r d c).regs) ∧
      (regWrite r d c).filt.divq = divqBoosted c.ext.boost (resOf (regWrite r d c).regs) := by
  cases r <;> exact ⟨rfl, rfl⟩

/-- The rendering commands: next with their result in the nearest mode, otherwise the fault raised. -/
theorem renderGate_cases (s t : State) :
    (s.chip.ext.renderMode = .nearest ∧ renderGate s t = .next t) ∨
      (s.chip.ext.renderMode ≠ .nearest ∧
        renderGate s t = .next (raise (.unsupported s.chip.ext.renderMode) s)) := by
  unfold renderGate
  by_cases h : s.chip.ext.renderMode = .nearest <;> simp [h]

/-- Everything a step can do: run a decoded command, hold, or reject words that are no command. -/
theorem step_cases {s t : State} (h : step s = .next t) :
    (∃ i rest, decode s.commands = .ok (i, rest) ∧ exec i { s with commands := rest } = .next t) ∨
      ((decode s.commands = .error .noCommand ∨ decode s.commands = .error .awaitingOperands) ∧ t = s) ∨
      (∃ w, (decode s.commands = .error (.reservedBits w) ∨ decode s.commands = .error (.badExtension w)) ∧
        t = rejectWord w s) ∨
      (∃ w, decode s.commands = .error (.badSelector w) ∧ t = rejectSelector w s) := by
  unfold step fetchAndRun at h
  split at h <;> rename_i hd
  · exact .inl ⟨_, _, hd, h⟩
  · exact .inr (.inl ⟨.inl hd, by simpa using h.symm⟩)
  · exact .inr (.inl ⟨.inr hd, by simpa using h.symm⟩)
  · exact .inr (.inr (.inl ⟨_, .inl hd, by simpa using h.symm⟩))
  · exact .inr (.inr (.inr ⟨_, hd, by simpa using h.symm⟩))
  · exact .inr (.inr (.inl ⟨_, .inr hd, by simpa using h.symm⟩))

end Sys2Proof.Machine
end

