-- ==== Sys2Proof/Laws/Units.lean ====
section
/-! SUPPORT. The units: what a cycle, a filter clock and a rendered sample can do, said once. -/

namespace Sys2Proof.Machine

/-- Everything an envelope cycle can do: count, count the exponential counter, stay held at zero, or step the level. -/
theorem envStep_cases (ad sr : Byte) (e : Env) :
    (rcNext e.rc ≠ e.rp ∧ envStep ad sr e = { e with rc := rcNext e.rc }) ∨
      (rcNext e.rc = e.rp ∧ e.phase ≠ .attack ∧ e.ec + 1#5 ≠ e.ep ∧
        envStep ad sr e = { e with rc := 0#15, ec := e.ec + 1#5 }) ∨
      (rcNext e.rc = e.rp ∧ (e.phase = .attack ∨ e.ec + 1#5 = e.ep) ∧ e.holdZero = true ∧
        envStep ad sr e = { e with rc := 0#15, ec := 0#5 }) ∨
      (rcNext e.rc = e.rp ∧ (e.phase = .attack ∨ e.ec + 1#5 = e.ep) ∧ e.holdZero = false ∧
        envStep ad sr e = expUpdate (levelStep ad sr { e with rc := 0#15, ec := 0#5 })) := by
  unfold envStep
  by_cases hr : rcNext e.rc = e.rp
  · by_cases ht : e.phase ≠ .attack ∧ e.ec + 1#5 ≠ e.ep
    · exact .inr (.inl ⟨hr, ht.1, ht.2, by simp [hr, rateTick, ht]⟩)
    · have ho : e.phase = .attack ∨ e.ec + 1#5 = e.ep := by
        by_cases hp : e.phase = .attack
        · exact .inl hp
        · exact .inr (by_contra fun hne => ht ⟨hp, hne⟩)
      have hn : ¬(¬e.phase = .attack ∧ ¬e.ec + 1#5 = e.ep) := ht
      cases hh : e.holdZero
      · exact .inr (.inr (.inr ⟨hr, ho, rfl, by simp [hr, rateTick, expTick, hn]⟩))
      · exact .inr (.inr (.inl ⟨hr, ho, rfl, by simp [hr, rateTick, expTick, hn]⟩))
  · exact .inl ⟨hr, by simp [hr]⟩

/-- Every cycle of the block leaves all but the oscillators and the envelopes alone. -/
theorem chipCycles_frame (n : Nat) (c : Chip) :
    (repeatTimes chipCycle n c).regs = c.regs ∧ (repeatTimes chipCycle n c).filt = c.filt ∧
      (repeatTimes chipCycle n c).modelPending = c.modelPending ∧
      (repeatTimes chipCycle n c).modelActive = c.modelActive ∧ (repeatTimes chipCycle n c).ext = c.ext ∧
      (repeatTimes chipCycle n c).dstate = c.dstate ∧ (repeatTimes chipCycle n c).clock = c.clock :=
  ⟨repeatTimes_part (f := chipCycle) Chip.regs (fun _ => rfl) n c, repeatTimes_part (f := chipCycle) Chip.filt (fun _ => rfl) n c,
    repeatTimes_part (f := chipCycle) Chip.modelPending (fun _ => rfl) n c, repeatTimes_part (f := chipCycle) Chip.modelActive (fun _ => rfl) n c,
    repeatTimes_part (f := chipCycle) Chip.ext (fun _ => rfl) n c, repeatTimes_part (f := chipCycle) Chip.dstate (fun _ => rfl) n c,
    repeatTimes_part (f := chipCycle) Chip.clock (fun _ => rfl) n c⟩

/-- The sub-steps leave the bypass latch and the coefficients alone. -/
theorem runSubSteps_frame (vi : Int) (n : Nat) (f : Filt) :
    (runSubSteps vi n f).vnf = f.vnf ∧ (runSubSteps vi n f).w0 = f.w0 ∧ (runSubSteps vi n f).divq = f.divq := by
  unfold runSubSteps
  generalize subStepPlan n = plan
  induction plan generalizing f with
  | nil => exact ⟨rfl, rfl, rfl⟩
  | cons dt rest ih => simpa using ih (subStep vi f dt)

/-- A filter clock leaves the coefficients alone. -/
theorem filterClock_coefficients (n : Nat) (vs : PerVoice Int) (e : Int) (c : Chip) :
    (filterClock n vs e c).filt.w0 = c.filt.w0 ∧ (filterClock n vs e c).filt.divq = c.filt.divq := by
  simp only [filterClock]
  exact ⟨(runSubSteps_frame _ _ _).2.1, (runSubSteps_frame _ _ _).2.2⟩

/-- A clock of n cycles leaves the registers, the models, the configuration, the rates and the coefficients alone. -/
theorem chipClock_frame (n : Nat) (c : Chip) :
    (chipClock n c).regs = c.regs ∧ (chipClock n c).modelPending = c.modelPending ∧
      (chipClock n c).modelActive = c.modelActive ∧ (chipClock n c).ext = c.ext ∧
      (chipClock n c).clock = c.clock ∧ (chipClock n c).filt.w0 = c.filt.w0 ∧
      (chipClock n c).filt.divq = c.filt.divq := by
  have h := chipCycles_frame n c
  have hc := filterClock_coefficients n (voiceSamples (repeatTimes chipCycle n c)) extIn (repeatTimes chipCycle n c)
  refine ⟨?_, ?_, ?_, ?_, ?_, ?_, ?_⟩
  · simp [chipClock, h.1]
  · simp [chipClock, h.2.2.1]
  · simp [chipClock, h.2.2.2.1]
  · simp [chipClock, h.2.2.2.2.1]
  · simp [chipClock, h.2.2.2.2.2.2]
  · simp only [chipClock, filterHalf]; rw [hc.1, h.2.1]
  · simp only [chipClock, filterHalf]; rw [hc.2, h.2.1]

/-- A clock of n cycles moves the oscillators and the envelopes by n cycles: the filter does not touch them. -/
theorem chipClock_voices (n : Nat) (c : Chip) :
    (chipClock n c).osc = (repeatTimes chipCycle n c).osc ∧ (chipClock n c).env = (repeatTimes chipCycle n c).env := by
  simp [chipClock]

/-- A rendered sample leaves the registers, the models, the configuration, the rates and the coefficients alone. -/
theorem renderOne_frame (c : Chip) :
    (renderOne c).regs = c.regs ∧ (renderOne c).modelPending = c.modelPending ∧
      (renderOne c).modelActive = c.modelActive ∧ (renderOne c).ext = c.ext ∧
      (renderOne c).clock = clockAdvance c.clock ∧ (renderOne c).filt.w0 = c.filt.w0 ∧
      (renderOne c).filt.divq = c.filt.divq := by
  simpa [renderOne] using
    chipClock_frame (sampleCycles c.clock) { c with clock := clockAdvance c.clock }

/-- The cycles step each envelope by itself, on its own registers (42_envelope.md R275). -/
theorem chipCycles_env (n : Nat) (c : Chip) (v : VoiceId) :
    (repeatTimes chipCycle n c).env.get v =
      repeatTimes (envStep (c.regs.voice.get v).attackDecay (c.regs.voice.get v).sustainRelease) n (c.env.get v) := by
  induction n generalizing c with
  | zero => rfl
  | succ n ih =>
    have hr : (chipCycle c).regs = c.regs := rfl
    rw [repeatTimes_succ, ih, repeatTimes_succ, hr]
    simp [chipCycle, envCycle]

/-- A clock of n cycles steps each envelope n times. -/
theorem chipClock_env (n : Nat) (c : Chip) (v : VoiceId) :
    (chipClock n c).env.get v =
      repeatTimes (envStep (c.regs.voice.get v).attackDecay (c.regs.voice.get v).sustainRelease) n (c.env.get v) := by
  rw [(chipClock_voices n c).2, chipCycles_env]

/-- Rendered samples leave the registers and step each envelope some number of times. -/
theorem renderChip_env (n : Nat) (c : Chip) (v : VoiceId) :
    (renderChip n c).regs = c.regs ∧ ∃ k, (renderChip n c).env.get v =
      repeatTimes (envStep (c.regs.voice.get v).attackDecay (c.regs.voice.get v).sustainRelease) k (c.env.get v) := by
  induction n generalizing c with
  | zero => exact ⟨rfl, 0, rfl⟩
  | succ n ih =>
    obtain ⟨h, k, hk⟩ := ih (renderOne c)
    have hr := (renderOne_frame c).1
    have he : (renderOne c).env.get v = repeatTimes
        (envStep (c.regs.voice.get v).attackDecay (c.regs.voice.get v).sustainRelease) (sampleCycles c.clock)
        (c.env.get v) := chipClock_env _ _ _
    exact ⟨h.trans hr, sampleCycles c.clock + k, by
      show (renderChip n (renderOne c)).env.get v = _
      rw [hk, hr, he, ← repeatTimes_add]⟩

/-- A named filter mode sums the taps of its MODE field (43_filter.md R333). -/
theorem filterMode_taps (mode : BitVec 3) (f : Filt) : filterModeTaps (filterMode mode) f = tapSum mode f := by
  have h : ∀ m : BitVec 3, m = 0#3 ∨ m = 1#3 ∨ m = 2#3 ∨ m = 3#3 ∨ m = 4#3 ∨ m = 5#3 ∨ m = 6#3 ∨ m = 7#3 := by
    decide
  rcases h mode with rfl | rfl | rfl | rfl | rfl | rfl | rfl | rfl <;>
    simp [filterModeTaps, filterMode, tapSum, takeIf]

end Sys2Proof.Machine
end

