-- ==== Sys2Proof/Laws/Invariants.lean ====
section
/-! SUPPORT. The invariant of Safety.lean, unit by unit: what one cycle and one register write keep of it. -/

namespace Sys2Proof.Machine

/-! ## The oscillator -/

/-- The bits of the shifted noise register (41_oscillator.md R224). -/
theorem bit_noiseShift (l : BitVec 23) (i : Nat) :
    (noiseShift l).getLsbD i =
      if i < 1 then (BitVec.ofBool (l.getLsbD 22 ^^ l.getLsbD 17)).getLsbD i
      else (l.extractLsb' 0 22).getLsbD (i - 1) := by
  change ((l.extractLsb' 0 22 ++ BitVec.ofBool (l.getLsbD 22 ^^ l.getLsbD 17) : BitVec (22 + 1))).getLsbD i = _
  rw [BitVec.getLsbD_append]

/-- The noise register never shifts to 0 (41_oscillator.md R224). -/
theorem noiseShift_ne_zero {l : BitVec 23} (h : l ≠ 0#23) : noiseShift l ≠ 0#23 := by
  intro h0
  apply h
  have hb : ∀ i, (noiseShift l).getLsbD i = false := fun i => by rw [h0]; exact BitVec.getLsbD_zero
  have h1 : ∀ i, i < 22 → l.getLsbD i = false := by
    intro i hi
    have hx := hb (i + 1)
    rw [bit_noiseShift, if_neg (by omega), Nat.add_sub_cancel, BitVec.getLsbD_extractLsb'] at hx
    simpa only [hi, decide_true, Bool.true_and, Nat.zero_add] using hx
  have h2 : (l.getLsbD 22 ^^ l.getLsbD 17) = false := by
    have hx := hb 0
    rw [bit_noiseShift, if_pos (by omega)] at hx
    generalize (l.getLsbD 22 ^^ l.getLsbD 17) = b at hx
    cases b
    · rfl
    · exact absurd hx (by decide)
  rw [h1 17 (by omega), Bool.xor_false] at h2
  apply BitVec.eq_of_getLsbD_eq
  intro i hi
  rw [BitVec.getLsbD_zero]
  rcases Nat.lt_or_ge i 22 with hlt | hge
  · exact h1 i hlt
  · have hi' : i = 22 := by omega
    rw [hi']; exact h2

/-- One cycle keeps an oscillator's part of the invariant (41_oscillator.md R228). -/
theorem oscStep_inv {r : VoiceRegs} {o : Osc} (h : OscInv r o) (event : Bool) : OscInv r (oscStep r event o) := by
  constructor
  · intro ht
    obtain ⟨ha, hl⟩ := h.test_holds ht
    constructor
    · simp [oscStep, oscNext, oscSum, ht, ha]
    · simp [oscStep, noiseEdge, ht, hl]
  · intro ht
    have hn := h.noise_alive ht
    simp only [oscStep]
    split
    · exact noiseShift_ne_zero hn
    · exact hn

/-- A control write keeps it, for the registers it stores (41_oscillator.md R232). -/
theorem oscWriteControl_inv {r : VoiceRegs} {o : Osc} (h : OscInv r o) (d : Byte) :
    OscInv { r with control := d } (oscWriteControl r.control d o) := by
  constructor
  · intro ht
    simp only at ht
    simp [oscWriteControl, ht]
  · intro ht
    simp only at ht
    cases ho : testBit r.control
    · simpa [oscWriteControl, ht, testCleared, ho] using h.noise_alive ho
    · simp [oscWriteControl, ht, testCleared, ho, lfsrSeed]

/-! ## The envelope -/

/-- A level step keeps the exponential period legal (42_envelope.md R274). -/
theorem expPeriodAt_legal (level : BitVec 8) (old : BitVec 5) (h : old ∈ [1#5, 2#5, 4#5, 8#5, 16#5, 30#5]) :
    (expPeriodAt level).getD old ∈ [1#5, 2#5, 4#5, 8#5, 16#5, 30#5] := by
  have key : ∀ l : BitVec 8, expPeriodAt l = none ∨
      ∃ p, expPeriodAt l = some p ∧ p ∈ [1#5, 2#5, 4#5, 8#5, 16#5, 30#5] := by
    intro l
    unfold expPeriodAt
    split <;> simp
  rcases key level with h0 | ⟨p, h1, h2⟩
  · rw [h0]; exact h
  · rw [h1]; exact h2

/-- A legal exponential period is not 0. -/
theorem exponential_pos {p : BitVec 5} (h : p ∈ [1#5, 2#5, 4#5, 8#5, 16#5, 30#5]) : 0 < p.toNat ∧ p.toNat ≤ 30 := by
  revert h
  revert p
  decide

/-- Where a level step takes the phase and the rate period (42_envelope.md R273, R288). -/
theorem levelStep_phase (ad sr : Byte) (e : Env) :
    (e.phase = .attack ∧ (levelStep ad sr e).phase = .decay ∧ (levelStep ad sr e).rp = ratePeriod (dcyOf ad)) ∨
      (e.phase = .attack ∧ (levelStep ad sr e).phase = .attack ∧ (levelStep ad sr e).rp = e.rp) ∨
      ((e.phase = .decay ∨ e.phase = .sustain) ∧
        ((levelStep ad sr e).phase = .decay ∨ (levelStep ad sr e).phase = .sustain) ∧
        (levelStep ad sr e).rp = e.rp) ∨
      (e.phase = .release ∧ (levelStep ad sr e).phase = .release ∧ (levelStep ad sr e).rp = e.rp) := by
  obtain ⟨level, phase, rc, rp, ec, ep, hz⟩ := e
  cases phase
  · simp only [levelStep]
    generalize (if level = 255#8 then 255#8 else level + 1#8) = l
    by_cases h : l = 255#8 <;> simp [h]
  · simp only [levelStep]
    generalize (if level = sustainLevel (susOf sr) ∨ level = 0#8 then level else level - 1#8) = l
    by_cases h : l = sustainLevel (susOf sr) <;> simp [h]
  · simp only [levelStep]
    generalize (if level = sustainLevel (susOf sr) ∨ level = 0#8 then level else level - 1#8) = l
    by_cases h : l = sustainLevel (susOf sr) <;> simp [h]
  · simp [levelStep]

/-- One cycle keeps an envelope's part of the invariant (42_envelope.md R271 to R275). -/
theorem envStep_inv {r : VoiceRegs} {e : Env} (h : EnvInv r e) :
    EnvInv r (envStep r.attackDecay r.sustainRelease e) := by
  rcases envStep_cases r.attackDecay r.sustainRelease e with ⟨_, h1⟩ | ⟨_, hp, hne, h1⟩ | ⟨_, _, hh, h1⟩ | ⟨_, _, hh, h1⟩
  · rw [h1]; exact ⟨h.ep_legal, h.ec_below, h.held_is_zero, h.rp_active, h.gate_phase⟩
  · rw [h1]
    refine ⟨h.ep_legal, ?_, h.held_is_zero, h.rp_active, h.gate_phase⟩
    have hb := h.ec_below
    have h30 := exponential_pos h.ep_legal
    have hne' : (e.ec + 1#5).toNat ≠ e.ep.toNat := fun hc => hne (BitVec.eq_of_toNat_eq hc)
    have hs : (e.ec + 1#5).toNat = e.ec.toNat + 1 := by
      rw [BitVec.toNat_add]
      exact Nat.mod_eq_of_lt (by simp; omega)
    simp only [hs] at hne' ⊢
    omega
  · rw [h1]
    exact ⟨h.ep_legal, (exponential_pos h.ep_legal).1, h.held_is_zero, h.rp_active, h.gate_phase⟩
  · rw [h1]
    have hec : ∀ ad sr (x : Env), (expUpdate (levelStep ad sr x)).ec = x.ec := by
      intro ad sr x
      unfold expUpdate levelStep
      split <;> simp
      split <;> rfl
    have hep : ∀ ad sr (x : Env), (levelStep ad sr x).ep = x.ep := by
      intro ad sr x
      unfold levelStep
      split <;> simp
      split <;> rfl
    have hhz : ∀ ad sr (x : Env), (levelStep ad sr x).holdZero = x.holdZero := by
      intro ad sr x
      unfold levelStep
      split <;> simp
      split <;> rfl
    refine ⟨?_, ?_, ?_, ?_, ?_⟩
    · simp only [expUpdate]
      rw [hep]
      exact expPeriodAt_legal _ _ h.ep_legal
    · rw [hec]
      simp only [expUpdate, hep]
      exact (exponential_pos (expPeriodAt_legal _ _ h.ep_legal)).1
    · simp [expUpdate, hhz, hh]
    · have hr := h.rp_active
      simp only [expUpdate]
      rcases levelStep_phase r.attackDecay r.sustainRelease { e with rc := 0#15, ec := 0#5 } with
        ⟨_, h2, h3⟩ | ⟨h1, h2, h3⟩ | ⟨h1, h2, h3⟩ | ⟨h1, h2, h3⟩
      · rw [h2, h3]; rfl
      · rw [h2, h3, hr]; simp only at h1; rw [h1]
      · simp only at h1
        rcases h1 with h1 | h1 <;> rcases h2 with h2 | h2 <;> rw [h2, h3, hr, h1] <;> rfl
      · rw [h2, h3, hr]; simp only at h1; rw [h1]
    · have hg := h.gate_phase
      simp only [expUpdate]
      rw [hg]
      rcases levelStep_phase r.attackDecay r.sustainRelease { e with rc := 0#15, ec := 0#5 } with
        ⟨h1, h2, _⟩ | ⟨h1, h2, _⟩ | ⟨h1, h2, _⟩ | ⟨h1, h2, _⟩
      · simp only at h1; rw [h2, h1]; simp
      · simp only at h1; rw [h2, h1]
      · simp only at h1
        rcases h1 with h1 | h1 <;> rcases h2 with h2 | h2 <;> rw [h2, h1] <;> simp
      · simp only at h1; rw [h2, h1]

/-- The gate edges of a control write keep it, for the registers it stores (42_envelope.md R280). -/
theorem envWriteControl_inv {r : VoiceRegs} {e : Env} (h : EnvInv r e) (d : Byte) :
    EnvInv { r with control := d } (envWriteControl r.control d r.attackDecay r.sustainRelease e) := by
  obtain ⟨h1, h2, h3, h4, h5⟩ := h
  unfold envWriteControl gateOnEdge gateOffEdge
  cases ho : gateBit r.control <;> cases hn : gateBit d <;> simp only [ho] at h5
  · exact ⟨h1, h2, h3, h4, by simpa [hn] using h5⟩
  · exact ⟨h1, h2, by simp, by simp [activeNibble], by simp [hn]⟩
  · exact ⟨h1, h2, h3, by simp [activeNibble], by simp [hn]⟩
  · exact ⟨h1, h2, h3, h4, by simpa [hn] using h5⟩

/-- An ATTACK_DECAY write keeps it (42_envelope.md R281). -/
theorem envWriteAttackDecay_inv {r : VoiceRegs} {e : Env} (h : EnvInv r e) (d : Byte) :
    EnvInv { r with attackDecay := d } (envWriteAttackDecay d e) := by
  obtain ⟨h1, h2, h3, h4, h5⟩ := h
  obtain ⟨level, phase, rc, rp, ec, ep, hz⟩ := e
  cases phase
  all_goals exact ⟨h1, h2, h3, by simp_all [envWriteAttackDecay, activeNibble], h5⟩

/-- A SUSTAIN_RELEASE write keeps it (42_envelope.md R282). -/
theorem envWriteSustainRelease_inv {r : VoiceRegs} {e : Env} (h : EnvInv r e) (d : Byte) :
    EnvInv { r with sustainRelease := d } (envWriteSustainRelease d e) := by
  obtain ⟨h1, h2, h3, h4, h5⟩ := h
  obtain ⟨level, phase, rc, rp, ec, ep, hz⟩ := e
  cases phase
  all_goals exact ⟨h1, h2, h3, by simp_all [envWriteSustainRelease, activeNibble], h5⟩

/-! ## A mapped write -/

/-- The oscillator's part reads one byte of the voice's registers. -/
theorem oscInv_congr {r r' : VoiceRegs} {o : Osc} (h : OscInv r o) (hc : r'.control = r.control) : OscInv r' o :=
  ⟨by rw [hc]; exact h.test_holds, by rw [hc]; exact h.noise_alive⟩

/-- The envelope's part reads three. -/
theorem envInv_congr {r r' : VoiceRegs} {e : Env} (h : EnvInv r e) (hc : r'.control = r.control)
    (ha : r'.attackDecay = r.attackDecay) (hs : r'.sustainRelease = r.sustainRelease) : EnvInv r' e :=
  ⟨h.ep_legal, h.ec_below, h.held_is_zero, by rw [ha, hs]; exact h.rp_active, by rw [hc]; exact h.gate_phase⟩

/-- A byte of the register file after a mapped write (45_chip_commands.md R401). -/
theorem getReg_regWrite (r q : RegName) (d : Byte) (c : Chip) :
    getReg (regWrite r d c).regs q = if q = r then d &&& regMask r else getReg c.regs q := by
  rw [regWrite_regs]
  split
  · rename_i h; rw [h, getReg_setReg_same]
  · rename_i h; exact getReg_setReg_ne _ h _

/-- A mapped write keeps every oscillator's part. -/
theorem regWrite_oscInv {c : Chip} (h : ∀ v, OscInv (c.regs.voice.get v) (c.osc.get v)) (r : RegName) (d : Byte)
    (u : VoiceId) : OscInv ((regWrite r d c).regs.voice.get u) ((regWrite r d c).osc.get u) := by
  by_cases hr : r = .control u
  · subst hr
    rw [(regWrite_control u d c).1]
    refine oscInv_congr (oscWriteControl_inv (h u) (d &&& 0xFF#8)) ?_
    have := getReg_regWrite (.control u) (.control u) d c
    rw [if_pos rfl] at this
    exact this
  · rw [regWrite_osc_other hr]
    refine oscInv_congr (h u) ?_
    have := getReg_regWrite r (.control u) d c
    rw [if_neg (fun e => hr e.symm)] at this
    exact this

/-- A mapped write keeps every envelope's part. -/
theorem regWrite_envInv {c : Chip} (h : ∀ v, EnvInv (c.regs.voice.get v) (c.env.get v)) (r : RegName) (d : Byte)
    (u : VoiceId) : EnvInv ((regWrite r d c).regs.voice.get u) ((regWrite r d c).env.get u) := by
  have hc := getReg_regWrite r (.control u) d c
  have ha := getReg_regWrite r (.attackDecay u) d c
  have hs := getReg_regWrite r (.sustainRelease u) d c
  by_cases h1 : r = .control u
  · subst h1
    rw [(regWrite_control u d c).2]
    rw [if_pos rfl] at hc
    rw [if_neg (by simp)] at ha hs
    exact envInv_congr (envWriteControl_inv (h u) (d &&& 0xFF#8)) hc ha hs
  · rw [if_neg (fun e => h1 e.symm)] at hc
    by_cases h2 : r = .attackDecay u
    · subst h2
      rw [(regWrite_rates u d c).1]
      rw [if_pos rfl] at ha
      rw [if_neg (by simp)] at hs
      exact envInv_congr (envWriteAttackDecay_inv (h u) (d &&& 0xFF#8)) hc ha hs
    · rw [if_neg (fun e => h2 e.symm)] at ha
      by_cases h3 : r = .sustainRelease u
      · subst h3
        rw [(regWrite_rates u d c).2]
        rw [if_pos rfl] at hs
        exact envInv_congr (envWriteSustainRelease_inv (h u) (d &&& 0xFF#8)) hc ha hs
      · rw [if_neg (fun e => h3 e.symm)] at hs
        rw [regWrite_env_other h1 h2 h3]
        exact envInv_congr (h u) hc ha hs

/-! ## The clock and the dither generator -/

/-- One sample keeps the residual below the host rate (40_clock_converter.md R201). -/
theorem clockAdvance_below {k : ClockAcc} (h : k.sRate ≠ 0#32) :
    (clockAdvance k).resid.toNat = residAfter k ∧ residAfter k < k.sRate.toNat := by
  have hp : 0 < k.sRate.toNat := by
    rcases Nat.eq_zero_or_pos k.sRate.toNat with h0 | h0
    · exact absurd (BitVec.eq_of_toNat_eq (by simpa using h0)) h
    · exact h0
  have hlt := Nat.mod_lt (k.resid.toNat + k.cRate.toNat) hp
  have hs := k.sRate.isLt
  refine ⟨?_, hlt⟩
  simp only [clockAdvance, residAfter, BitVec.toNat_ofNat]
  exact Nat.mod_eq_of_lt (by omega)

/-- A shift-and-add step of the generator that is 0 came from 0: the left shift. -/
theorem xor_shiftLeft_eq_zero {x : Word} {k : Nat} (hk : 0 < k) (h : x ^^^ (x <<< k) = 0#32) : x = 0#32 := by
  have hb : ∀ i, i < 32 → x.getLsbD i = (decide (k ≤ i) && x.getLsbD (i - k)) := by
    intro i hi
    have hx : (x ^^^ (x <<< k)).getLsbD i = false := by rw [h]; exact BitVec.getLsbD_zero
    rw [BitVec.getLsbD_xor, BitVec.getLsbD_shiftLeft] at hx
    generalize x.getLsbD i = a at hx ⊢
    generalize x.getLsbD (i - k) = b at hx ⊢
    by_cases hki : i < k
    · rw [decide_eq_false (by omega : ¬k ≤ i)]
      rw [decide_eq_true hki] at hx
      cases a <;> cases b <;> simp at hx ⊢
    · rw [decide_eq_true (by omega : k ≤ i)]
      rw [decide_eq_false hki, decide_eq_true hi] at hx
      cases a <;> cases b <;> simp at hx ⊢
  apply BitVec.eq_of_getLsbD_eq
  intro i hi
  induction i using Nat.strongRecOn with
  | ind i ih =>
    rw [hb i hi, BitVec.getLsbD_zero]
    by_cases hki : k ≤ i
    · rw [ih (i - k) (by omega) (by omega), BitVec.getLsbD_zero, Bool.and_false]
    · rw [decide_eq_false hki, Bool.false_and]

/-- The right shift. -/
theorem xor_shiftRight_eq_zero {x : Word} {k : Nat} (hk : 0 < k) (h : x ^^^ (x >>> k) = 0#32) : x = 0#32 := by
  have hb : ∀ i, x.getLsbD i = x.getLsbD (k + i) := by
    intro i
    have hx : (x ^^^ (x >>> k)).getLsbD i = false := by rw [h]; exact BitVec.getLsbD_zero
    rw [BitVec.getLsbD_xor, BitVec.getLsbD_ushiftRight] at hx
    generalize x.getLsbD i = a at hx ⊢
    generalize x.getLsbD (k + i) = b at hx ⊢
    cases a <;> cases b <;> simp at hx ⊢
  have hz : ∀ n i, 32 - i ≤ n → x.getLsbD i = false := by
    intro n
    induction n with
    | zero => intro i hi; exact BitVec.getLsbD_of_ge _ _ (by omega)
    | succ n ih =>
      intro i hi
      by_cases hge : 32 ≤ i
      · exact BitVec.getLsbD_of_ge _ _ hge
      · rw [hb i]; exact ih (k + i) (by omega)
  apply BitVec.eq_of_getLsbD_eq
  intro i hi
  simp [hz 32 i (by omega)]

/-- A draw of the dither generator keeps its state away from 0 (44_voice_mixer.md R373). -/
theorem ditherNext_ne_zero {x : Word} (h : x ≠ 0#32) : ditherNext x ≠ 0#32 := by
  intro h0
  apply h
  exact xor_shiftLeft_eq_zero (by omega) (xor_shiftRight_eq_zero (by omega) (xor_shiftLeft_eq_zero (by omega) h0))

/-- So do the draws of a filter clock. -/
theorem ditherState_ne_zero {x : Word} (h : x ≠ 0#32) (on : Bool) : ditherState on x ≠ 0#32 := by
  unfold ditherState
  split
  · exact ditherNext_ne_zero (ditherNext_ne_zero (ditherNext_ne_zero h))
  · exact h

end Sys2Proof.Machine
end

