-- ==== Sys2Proof/Laws/Claims.lean ====
section
/-! SUPPORT. The words the statements are said in, reduced to the model's own: fields of a word, the opcode of each
command, the address and the data of a WR. -/

namespace Sys2Proof.Claims

open Sys2Proof.Machine

/-- A field is the number of the bits it names. -/
theorem field_eq_toNat (w : Word) (lo len : Nat) : field w lo len = (w.extractLsb' lo len).toNat := by
  rw [field, BitVec.extractLsb'_toNat, Nat.shiftRight_eq_div_pow]

/-- The opcode is the decoder's field. -/
theorem opcode_eq_toNat (i : Instr) : opcode i = (opField (wordOf i)).toNat := field_eq_toNat _ _ _

/-- The address of a WR word. -/
@[simp] theorem field_wordWr_addr (a : Addr) (d : Byte) : field (wordWr a d) 8 5 = a.toNat := by
  rw [field_eq_toNat]; exact congrArg BitVec.toNat (addrField_wordWr a d)

/-- The data of a WR word. -/
@[simp] theorem field_wordWr_data (a : Addr) (d : Byte) : field (wordWr a d) 0 8 = d.toNat := by
  rw [field_eq_toNat]; exact congrArg BitVec.toNat (dataField_wordWr a d)

/-- The opcode of a WR word. -/
@[simp] theorem field_wordWr_op (a : Addr) (d : Byte) : field (wordWr a d) 28 4 = 0x1 := by
  rw [field_eq_toNat]; exact congrArg BitVec.toNat (opField_wordWr a d)

/-- The opcode of a RD word. -/
@[simp] theorem field_wordRd_op (a : Addr) : field (wordRd a) 28 4 = 0x2 := by
  rw [field_eq_toNat]; exact congrArg BitVec.toNat (opField_wordRd a)

/-- The opcode of a format Z word. -/
@[simp] theorem field_wordZ_op (op : BitVec 4) : field (wordZ op) 28 4 = op.toNat := by
  rw [field_eq_toNat]; exact congrArg BitVec.toNat (opField_wordZ op)

/-- The opcode of a format C word. -/
@[simp] theorem field_wordC_op (op : BitVec 4) (n : BitVec 28) : field (wordC op n) 28 4 = op.toNat := by
  rw [field_eq_toNat]; exact congrArg BitVec.toNat (opField_wordC op n)

/-- The opcode of a SETMODEL word. -/
@[simp] theorem field_wordModel_op (m : BitVec 1) : field (wordModel m) 28 4 = 0x4 := by
  rw [field_eq_toNat]; exact congrArg BitVec.toNat (opField_wordModel m)

/-- The opcode of a MON word. -/
@[simp] theorem field_wordMon_op (sel : BitVec 4) : field (wordMon sel) 28 4 = 0x9 := by
  rw [field_eq_toNat]; exact congrArg BitVec.toNat (opField_wordMon sel)

/-- The opcode of a SETEXT word. -/
@[simp] theorem field_wordExt_op (sub : BitVec 4) (v : BitVec 2) (val : BitVec 9) :
    field (wordExt sub v val) 28 4 = 0xA := by
  rw [field_eq_toNat]; exact congrArg BitVec.toNat (opField_wordExt sub v val)

/-- Everything a command can do, by its opcode: one of the WR meanings, or one of the others on the block. -/
theorem exec_shape {i : Instr} {s t : State} (h : exec i s = .next t) :
    (opcode i = 0x1 ∧ ∃ r d, i = wrTo r d ∧ t = finish (regWrite r d s.chip) s) ∨
      (opcode i = 0x1 ∧ 0x18 < field (wordOf i) 8 5 ∧ t = finish s.chip s) ∨
      ((opcode i = 0x2 ∨ opcode i = 0x9) ∧ ∃ w, t = answer w s) ∨
      (opcode i = 0x3 ∧ t = finish s.chip.resetBody s) ∨
      (opcode i = 0x4 ∧ ∃ m, t = finish (setModel m s.chip) s) ∨
      (opcode i = 0x5 ∧ ∃ a b, a ≠ 0#32 ∧ b ≠ 0#32 ∧ t = finish { s.chip with clock := clockConfigured a b } s) ∨
      (opcode i = 0x6 ∧ ∃ n, t = finish (chipClock n s.chip) s) ∨
      ((opcode i = 0x7 ∨ opcode i = 0x8) ∧
        ∃ n, t = finishEmitting (renderChip n s.chip) (renderSamples n s.chip) s) ∨
      (opcode i = 0xA ∧ ∃ e, t = finish (setExt e s.chip) s ∧ e.boost = s.chip.ext.boost) ∨
      (opcode i = 0xA ∧ ∃ b : BitVec 9, b.toNat ≤ 256 ∧
        t = finish (recomputeDivq (setExt { s.chip.ext with boost := b } s.chip)) s) ∨
      ((opcode i = 0x0 ∨ opcode i = 0x5 ∨ opcode i = 0x7 ∨ opcode i = 0x8 ∨ 0xA ≤ opcode i) ∧
        ∃ f, f.status ≠ 0 ∧ f.result = none ∧ t = raise f s) := by
  have wr : ∀ r d, i = wrTo r d → opcode i = 0x1 → writeCommand r d s = .next t →
      (opcode i = 0x1 ∧ ∃ r d, i = wrTo r d ∧ t = finish (regWrite r d s.chip) s) :=
    fun r d hi ho hw => ⟨ho, r, d, hi, writeCommand_next hw⟩
  have un : opcode i = 0x1 → 0x18 < field (wordOf i) 8 5 → unmappedWrite s = .next t →
      (opcode i = 0x1 ∧ 0x18 < field (wordOf i) 8 5 ∧ t = finish s.chip s) :=
    fun ho ha hu => ⟨ho, ha, unmappedWrite_next hu⟩
  cases i
  case setRate a b =>
    simp only [exec, execSetRate] at h
    split at h <;> injection h with e <;> subst e
    · exact .inr (.inr (.inr (.inr (.inr (.inr (.inr (.inr (.inr (.inr
        ⟨by simp [opcode, wordOf, encode], _, by simp [Response.status], rfl, rfl⟩)))))))))
    · rename_i hn
      exact .inr (.inr (.inr (.inr (.inr (.inl
        ⟨by simp [opcode, wordOf, encode], a, b, fun x => hn (.inl x), fun x => hn (.inr x), rfl⟩)))))
  case rsmp =>
    rcases renderGate_cases s (finishEmitting (renderOne s.chip) [outSample (renderOne s.chip)] s) with
      ⟨_, h2⟩ | ⟨_, h2⟩ <;> simp only [exec, execRsmp, h2] at h <;> injection h with e <;> subst e
    · exact .inr (.inr (.inr (.inr (.inr (.inr (.inr (.inl ⟨.inl (by simp [opcode, wordOf, encode]), 1, rfl⟩)))))))
    · exact .inr (.inr (.inr (.inr (.inr (.inr (.inr (.inr (.inr (.inr
        ⟨by simp [opcode, wordOf, encode], _, by simp [Response.status], rfl, rfl⟩)))))))))
  case render n =>
    rcases renderGate_cases s
        (finishEmitting (renderChip (countOperand n) s.chip) (renderSamples (countOperand n) s.chip) s) with
      ⟨_, h2⟩ | ⟨_, h2⟩ <;> simp only [exec, execRender, h2] at h <;> injection h with e <;> subst e
    · exact .inr (.inr (.inr (.inr (.inr (.inr (.inr (.inl ⟨.inr (by simp [opcode, wordOf, encode]), _, rfl⟩)))))))
    · exact .inr (.inr (.inr (.inr (.inr (.inr (.inr (.inr (.inr (.inr
        ⟨by simp [opcode, wordOf, encode], _, by simp [Response.status], rfl, rfl⟩)))))))))
  case setExtGain v val =>
    simp only [exec, execSetExtGain] at h
    split at h <;> injection h with e <;> subst e
    · exact .inr (.inr (.inr (.inr (.inr (.inr (.inr (.inr (.inl
        ⟨by simp [opcode, wordOf, encode], _, rfl, rfl⟩))))))))
    · exact .inr (.inr (.inr (.inr (.inr (.inr (.inr (.inr (.inr (.inr
        ⟨by simp [opcode, wordOf, encode], _, by simp [Response.status], rfl, rfl⟩)))))))))
  case setExtBoost val =>
    simp only [exec, execSetExtBoost] at h
    split at h <;> injection h with e <;> subst e
    · rename_i hb
      exact .inr (.inr (.inr (.inr (.inr (.inr (.inr (.inr (.inr (.inl
        ⟨by simp [opcode, wordOf, encode], val, hb, rfl⟩)))))))))
    · exact .inr (.inr (.inr (.inr (.inr (.inr (.inr (.inr (.inr (.inr
        ⟨by simp [opcode, wordOf, encode], _, by simp [Response.status], rfl, rfl⟩)))))))))
  all_goals first
    | exact .inl (wr _ _ rfl (by simp [opcode, wordOf, encode]) h)
    | exact .inr (.inl (un (by simp [opcode, wordOf, encode]) (by simp [wordOf, encode]) h))
    | injection h with e
      subst e
      first
        | exact .inr (.inr (.inl ⟨by simp [opcode, wordOf, encode], _, rfl⟩))
        | exact .inr (.inr (.inr (.inl ⟨by simp [opcode, wordOf, encode], rfl⟩)))
        | exact .inr (.inr (.inr (.inr (.inl ⟨by simp [opcode, wordOf, encode], _, rfl⟩))))
        | exact .inr (.inr (.inr (.inr (.inr (.inr (.inl ⟨by simp [opcode, wordOf, encode], _, rfl⟩))))))
        | exact .inr (.inr (.inr (.inr (.inr (.inr (.inr (.inr (.inl
            ⟨by simp [opcode, wordOf, encode], _, rfl, rfl⟩))))))))
        | exact .inr (.inr (.inr (.inr (.inr (.inr (.inr (.inr (.inr (.inr
            ⟨by simp [opcode, wordOf, encode], _, by simp [Response.status], rfl, rfl⟩)))))))))

/-- Everything a command can do to one envelope: nothing, the reset value, a new period where the control byte stays, the
gate edges of a control write, or some number of cycles. A relation that holds of each holds over every command. -/
theorem env_of_exec {P : VoiceRegs → Env → VoiceRegs → Env → Prop} (same : ∀ r e, P r e r e)
    (reset : ∀ r e, P r e VoiceRegs.reset Env.reset)
    (rate : ∀ r e r' rp, r'.control = r.control → P r e r' { e with rp := rp })
    (gate : ∀ r e d, P r e { r with control := d } (envWriteControl r.control d r.attackDecay r.sustainRelease e))
    (cycles : ∀ r e n, P r e r (repeatTimes (envStep r.attackDecay r.sustainRelease) n e))
    {i : Instr} {s t : State} (h : exec i s = .next t) (v : VoiceId) :
    P (s.chip.regs.voice.get v) (s.chip.env.get v) (t.chip.regs.voice.get v) (t.chip.env.get v) := by
  rcases exec_shape h with ⟨_, r, d, _, rfl⟩ | ⟨_, _, rfl⟩ | ⟨_, _, rfl⟩ | ⟨_, rfl⟩ | ⟨_, _, rfl⟩ |
    ⟨_, _, _, _, _, rfl⟩ | ⟨_, n, rfl⟩ | ⟨_, n, rfl⟩ | ⟨_, _, rfl, _⟩ | ⟨_, _, _, rfl⟩ | ⟨_, _, _, _, rfl⟩
  case inl =>
    show P _ _ ((regWrite r d s.chip).regs.voice.get v) ((regWrite r d s.chip).env.get v)
    rw [regWrite_regs]
    by_cases hc : r = .control v
    · subst hc
      rw [(regWrite_control v d s.chip).2]
      simp only [setReg, get_set_same]
      exact gate _ _ _
    by_cases ha : r = .attackDecay v
    · subst ha
      rw [(regWrite_rates v d s.chip).1]
      simp only [setReg, get_set_same]
      have hx : ∃ rp, envWriteAttackDecay (d &&& 0xFF#8) (s.chip.env.get v) = { s.chip.env.get v with rp := rp } := by
        unfold envWriteAttackDecay; split <;> exact ⟨_, rfl⟩
      obtain ⟨rp, hrp⟩ := hx
      rw [hrp]
      exact rate (s.chip.regs.voice.get v) (s.chip.env.get v)
        { s.chip.regs.voice.get v with attackDecay := d &&& 0xFF#8 } rp rfl
    by_cases hs : r = .sustainRelease v
    · subst hs
      rw [(regWrite_rates v d s.chip).2]
      simp only [setReg, get_set_same]
      have hx : ∃ rp, envWriteSustainRelease (d &&& 0xFF#8) (s.chip.env.get v) = { s.chip.env.get v with rp := rp } := by
        unfold envWriteSustainRelease; split <;> exact ⟨_, rfl⟩
      obtain ⟨rp, hrp⟩ := hx
      rw [hrp]
      exact rate (s.chip.regs.voice.get v) (s.chip.env.get v)
        { s.chip.regs.voice.get v with sustainRelease := d &&& 0xFF#8 } rp rfl
    rw [regWrite_env_other hc ha hs]
    apply rate (s.chip.regs.voice.get v) (s.chip.env.get v) _ (s.chip.env.get v).rp
    cases r <;> simp only [setReg, get_set] <;> (try split) <;> (try subst_vars) <;>
      first | rfl | exact absurd rfl hc
  case inr.inr.inr.inl =>
    show P _ _ (RegFile.reset.voice.get v) ((⟨Env.reset, Env.reset, Env.reset⟩ : PerVoice Env).get v)
    cases v <;> exact reset _ _
  all_goals first
    | exact same _ _
    | (show P _ _ ((chipClock n s.chip).regs.voice.get v) ((chipClock n s.chip).env.get v)
       rw [(chipClock_frame n s.chip).1, chipClock_env]
       exact cycles _ _ _)
    | (show P _ _ ((renderChip n s.chip).regs.voice.get v) ((renderChip n s.chip).env.get v)
       obtain ⟨h1, k, h2⟩ := renderChip_env n s.chip v
       rw [h1, h2]
       exact cycles _ _ _)

end Sys2Proof.Claims
end

