-- ==== Sys2Proof/Laws/PerInstr.lean ====
section
/-! SUPPORT. Statements about every command as syntax, one lemma for each constructor. EncodeShape: a command is as many
words long as the opcode of its first word says (30_encoding.md R144). -/

namespace Sys2Proof.Laws.EncodeShape

/-- The length of an encoded command is the one its first word names. -/
def Statement (i : Instr) : Prop :=
  (encode i).length = commandLength ((encode i).headD 0#32)

/-- One word is as long as its opcode says when that is not SETRATE's. -/
theorem one_word {w : Word} {op : BitVec 4} (h : opField w = op) (hne : op ≠ 0x5#4) :
    [w].length = commandLength w := by
  unfold commandLength
  rw [if_neg (h ▸ hne)]
  rfl

theorem wrFreqLo0 (data : Byte) : Statement (.wrFreqLo0 data) :=
  one_word (opField_wordWr _ _) (by decide)

theorem wrFreqHi0 (data : Byte) : Statement (.wrFreqHi0 data) :=
  one_word (opField_wordWr _ _) (by decide)

theorem wrPwLo0 (data : Byte) : Statement (.wrPwLo0 data) :=
  one_word (opField_wordWr _ _) (by decide)

theorem wrPwHi0 (data : Byte) : Statement (.wrPwHi0 data) :=
  one_word (opField_wordWr _ _) (by decide)

theorem wrControl0 (data : Byte) : Statement (.wrControl0 data) :=
  one_word (opField_wordWr _ _) (by decide)

theorem wrAttackDecay0 (data : Byte) : Statement (.wrAttackDecay0 data) :=
  one_word (opField_wordWr _ _) (by decide)

theorem wrSustainRelease0 (data : Byte) : Statement (.wrSustainRelease0 data) :=
  one_word (opField_wordWr _ _) (by decide)

theorem wrFreqLo1 (data : Byte) : Statement (.wrFreqLo1 data) :=
  one_word (opField_wordWr _ _) (by decide)

theorem wrFreqHi1 (data : Byte) : Statement (.wrFreqHi1 data) :=
  one_word (opField_wordWr _ _) (by decide)

theorem wrPwLo1 (data : Byte) : Statement (.wrPwLo1 data) :=
  one_word (opField_wordWr _ _) (by decide)

theorem wrPwHi1 (data : Byte) : Statement (.wrPwHi1 data) :=
  one_word (opField_wordWr _ _) (by decide)

theorem wrControl1 (data : Byte) : Statement (.wrControl1 data) :=
  one_word (opField_wordWr _ _) (by decide)

theorem wrAttackDecay1 (data : Byte) : Statement (.wrAttackDecay1 data) :=
  one_word (opField_wordWr _ _) (by decide)

theorem wrSustainRelease1 (data : Byte) : Statement (.wrSustainRelease1 data) :=
  one_word (opField_wordWr _ _) (by decide)

theorem wrFreqLo2 (data : Byte) : Statement (.wrFreqLo2 data) :=
  one_word (opField_wordWr _ _) (by decide)

theorem wrFreqHi2 (data : Byte) : Statement (.wrFreqHi2 data) :=
  one_word (opField_wordWr _ _) (by decide)

theorem wrPwLo2 (data : Byte) : Statement (.wrPwLo2 data) :=
  one_word (opField_wordWr _ _) (by decide)

theorem wrPwHi2 (data : Byte) : Statement (.wrPwHi2 data) :=
  one_word (opField_wordWr _ _) (by decide)

theorem wrControl2 (data : Byte) : Statement (.wrControl2 data) :=
  one_word (opField_wordWr _ _) (by decide)

theorem wrAttackDecay2 (data : Byte) : Statement (.wrAttackDecay2 data) :=
  one_word (opField_wordWr _ _) (by decide)

theorem wrSustainRelease2 (data : Byte) : Statement (.wrSustainRelease2 data) :=
  one_word (opField_wordWr _ _) (by decide)

theorem wrFcLo (data : Byte) : Statement (.wrFcLo data) :=
  one_word (opField_wordWr _ _) (by decide)

theorem wrFcHi (data : Byte) : Statement (.wrFcHi data) :=
  one_word (opField_wordWr _ _) (by decide)

theorem wrResFilt (data : Byte) : Statement (.wrResFilt data) :=
  one_word (opField_wordWr _ _) (by decide)

theorem wrModeVol (data : Byte) : Statement (.wrModeVol data) :=
  one_word (opField_wordWr _ _) (by decide)

theorem wrUnmapped19 (data : Byte) : Statement (.wrUnmapped19 data) :=
  one_word (opField_wordWr _ _) (by decide)

theorem wrUnmapped1A (data : Byte) : Statement (.wrUnmapped1A data) :=
  one_word (opField_wordWr _ _) (by decide)

theorem wrUnmapped1B (data : Byte) : Statement (.wrUnmapped1B data) :=
  one_word (opField_wordWr _ _) (by decide)

theorem wrUnmapped1C (data : Byte) : Statement (.wrUnmapped1C data) :=
  one_word (opField_wordWr _ _) (by decide)

theorem wrUnmapped1D (data : Byte) : Statement (.wrUnmapped1D data) :=
  one_word (opField_wordWr _ _) (by decide)

theorem wrUnmapped1E (data : Byte) : Statement (.wrUnmapped1E data) :=
  one_word (opField_wordWr _ _) (by decide)

theorem wrUnmapped1F (data : Byte) : Statement (.wrUnmapped1F data) :=
  one_word (opField_wordWr _ _) (by decide)

theorem rd (addr : Addr) : Statement (.rd addr) :=
  one_word (opField_wordRd _) (by decide)

theorem reset : Statement (.reset) :=
  one_word (opField_wordZ _) (by decide)

theorem setModelA : Statement (.setModelA) :=
  one_word (opField_wordModel _) (by decide)

theorem setModelB : Statement (.setModelB) :=
  one_word (opField_wordModel _) (by decide)

theorem setRate (host chip : Word) : Statement (.setRate host chip) :=
  (if_pos (opField_wordZ 0x5#4)).symm

theorem clk (n : BitVec 28) : Statement (.clk n) :=
  one_word (opField_wordC _ _) (by decide)

theorem rsmp : Statement (.rsmp) :=
  one_word (opField_wordZ _) (by decide)

theorem render (n : BitVec 28) : Statement (.render n) :=
  one_word (opField_wordC _ _) (by decide)

theorem monWave0 : Statement (.monWave0) :=
  one_word (opField_wordMon _) (by decide)

theorem monWave1 : Statement (.monWave1) :=
  one_word (opField_wordMon _) (by decide)

theorem monWave2 : Statement (.monWave2) :=
  one_word (opField_wordMon _) (by decide)

theorem monEnv0 : Statement (.monEnv0) :=
  one_word (opField_wordMon _) (by decide)

theorem monEnv1 : Statement (.monEnv1) :=
  one_word (opField_wordMon _) (by decide)

theorem monEnv2 : Statement (.monEnv2) :=
  one_word (opField_wordMon _) (by decide)

theorem monFc : Statement (.monFc) :=
  one_word (opField_wordMon _) (by decide)

theorem monVol : Statement (.monVol) :=
  one_word (opField_wordMon _) (by decide)

theorem setExtDither (val : BitVec 1) : Statement (.setExtDither val) :=
  one_word (opField_wordExt _ _ _) (by decide)

theorem setExtGain (v : BitVec 2) (val : BitVec 9) : Statement (.setExtGain v val) :=
  one_word (opField_wordExt _ _ _) (by decide)

theorem setExtBoost (val : BitVec 9) : Statement (.setExtBoost val) :=
  one_word (opField_wordExt _ _ _) (by decide)

theorem setExtAm (mask : BitVec 3) : Statement (.setExtAm mask) :=
  one_word (opField_wordExt _ _ _) (by decide)

theorem setExtRmodeNearest : Statement (.setExtRmodeNearest) :=
  one_word (opField_wordExt _ _ _) (by decide)

theorem setExtRmodeLinear : Statement (.setExtRmodeLinear) :=
  one_word (opField_wordExt _ _ _) (by decide)

theorem setExtRmodeBandlimited : Statement (.setExtRmodeBandlimited) :=
  one_word (opField_wordExt _ _ _) (by decide)

theorem illegalOp0 (rest : BitVec 28) : Statement (.illegalOp0 rest) :=
  one_word (opField_wordC _ _) (by decide)

theorem illegalOpB (rest : BitVec 28) : Statement (.illegalOpB rest) :=
  one_word (opField_wordC _ _) (by decide)

theorem illegalOpC (rest : BitVec 28) : Statement (.illegalOpC rest) :=
  one_word (opField_wordC _ _) (by decide)

theorem illegalOpD (rest : BitVec 28) : Statement (.illegalOpD rest) :=
  one_word (opField_wordC _ _) (by decide)

theorem illegalOpE (rest : BitVec 28) : Statement (.illegalOpE rest) :=
  one_word (opField_wordC _ _) (by decide)

theorem illegalOpF (rest : BitVec 28) : Statement (.illegalOpF rest) :=
  one_word (opField_wordC _ _) (by decide)

end Sys2Proof.Laws.EncodeShape
end

