-- ==== Sys2Proof/Tests/Slice0.lean ====
section
/-! SUPPORT. Tests: the ill-formed terms, words written out from the spec's encodings, the spec's vectors
(95_test_vectors.md), and for each obligation with hypotheses a state that meets them. -/

namespace Sys2Proof.Tests

open Sys2Proof Sys2Proof.Machine Sys2Proof.Claims

/-! ## Well-formedness -/

/-- SETEXT GAIN with V = 3 and SETEXT BOOST with VAL = 257 are refused; V = 2 and VAL = 256 pass (30_encoding.md
R147). -/
theorem test_wf_refuses_ill_formed :
    Instr.wf (.setExtGain 3#2 128#9) = false ∧ Instr.wf (.setExtBoost 257#9) = false ∧
    Instr.wf (.setExtGain 2#2 511#9) = true ∧ Instr.wf (.setExtBoost 256#9) = true :=
  ⟨rfl, rfl, rfl, rfl⟩

/-! ## Words of the spec -/

/-- WR to the seven registers of voice 0, base 0x00: OP 1 in 31:28, ADDR in 12:8, DATA in 7:0 (30_encoding.md R142;
20_memory.md R102). -/
theorem test_decode_wr_voice0 :
    decode [0x10000045#32] = .ok (.wrFreqLo0 0x45#8, []) ∧
    decode [0x1000011D#32] = .ok (.wrFreqHi0 0x1D#8, []) ∧
    decode [0x10000200#32] = .ok (.wrPwLo0 0x00#8, []) ∧
    decode [0x100003F8#32] = .ok (.wrPwHi0 0xF8#8, []) ∧
    decode [0x10000421#32] = .ok (.wrControl0 0x21#8, []) ∧
    decode [0x10000509#32] = .ok (.wrAttackDecay0 0x09#8, []) ∧
    decode [0x100006F0#32] = .ok (.wrSustainRelease0 0xF0#8, []) :=
  ⟨rfl, rfl, rfl, rfl, rfl, rfl, rfl⟩

/-- WR to the seven registers of voice 1, base 0x07: OP 1 in 31:28, ADDR in 12:8, DATA in 7:0 (30_encoding.md R142;
20_memory.md R102). -/
theorem test_decode_wr_voice1 :
    decode [0x10000701#32] = .ok (.wrFreqLo1 0x01#8, []) ∧
    decode [0x10000802#32] = .ok (.wrFreqHi1 0x02#8, []) ∧
    decode [0x10000904#32] = .ok (.wrPwLo1 0x04#8, []) ∧
    decode [0x10000A08#32] = .ok (.wrPwHi1 0x08#8, []) ∧
    decode [0x10000B10#32] = .ok (.wrControl1 0x10#8, []) ∧
    decode [0x10000C20#32] = .ok (.wrAttackDecay1 0x20#8, []) ∧
    decode [0x10000D40#32] = .ok (.wrSustainRelease1 0x40#8, []) :=
  ⟨rfl, rfl, rfl, rfl, rfl, rfl, rfl⟩

/-- WR to the seven registers of voice 2, base 0x0E: OP 1 in 31:28, ADDR in 12:8, DATA in 7:0 (30_encoding.md R142;
20_memory.md R102). -/
theorem test_decode_wr_voice2 :
    decode [0x10000E00#32] = .ok (.wrFreqLo2 0x00#8, []) ∧
    decode [0x10000F20#32] = .ok (.wrFreqHi2 0x20#8, []) ∧
    decode [0x10001080#32] = .ok (.wrPwLo2 0x80#8, []) ∧
    decode [0x100011FF#32] = .ok (.wrPwHi2 0xFF#8, []) ∧
    decode [0x10001288#32] = .ok (.wrControl2 0x88#8, []) ∧
    decode [0x10001377#32] = .ok (.wrAttackDecay2 0x77#8, []) ∧
    decode [0x10001455#32] = .ok (.wrSustainRelease2 0x55#8, []) :=
  ⟨rfl, rfl, rfl, rfl, rfl, rfl, rfl⟩

/-- WR to FC_LO, FC_HI, RES_FILT and MODE_VOL (95_test_vectors.md P3). -/
theorem test_decode_wr_filter :
    decode [0x10001507#32] = .ok (.wrFcLo 0x07#8, []) ∧
    decode [0x10001680#32] = .ok (.wrFcHi 0x80#8, []) ∧
    decode [0x10001781#32] = .ok (.wrResFilt 0x81#8, []) ∧
    decode [0x1000181F#32] = .ok (.wrModeVol 0x1F#8, []) :=
  ⟨rfl, rfl, rfl, rfl⟩

/-- WR to the seven unmapped addresses (30_encoding.md R142; 95_test_vectors.md section 2.6). -/
theorem test_decode_wr_unmapped :
    decode [0x100019AA#32] = .ok (.wrUnmapped19 0xAA#8, []) ∧
    decode [0x10001AAA#32] = .ok (.wrUnmapped1A 0xAA#8, []) ∧
    decode [0x10001BAA#32] = .ok (.wrUnmapped1B 0xAA#8, []) ∧
    decode [0x10001CAA#32] = .ok (.wrUnmapped1C 0xAA#8, []) ∧
    decode [0x10001DAA#32] = .ok (.wrUnmapped1D 0xAA#8, []) ∧
    decode [0x10001EAA#32] = .ok (.wrUnmapped1E 0xAA#8, []) ∧
    decode [0x10001FAA#32] = .ok (.wrUnmapped1F 0xAA#8, []) :=
  ⟨rfl, rfl, rfl, rfl, rfl, rfl, rfl⟩

/-- RD: OP 2, ADDR in 12:8 (95_test_vectors.md section 2.6). -/
theorem test_decode_rd :
    decode [0x20000300#32] = .ok (.rd 0x03#5, []) ∧
    decode [0x20001F00#32] = .ok (.rd 0x1F#5, []) :=
  ⟨rfl, rfl⟩

/-- RESET, SETMODEL A and B, SETRATE with its two operand words, host rate first (95_test_vectors.md section 2.6). -/
theorem test_decode_lifecycle :
    decode [0x30000000#32] = .ok (.reset, []) ∧
    decode [0x40000000#32] = .ok (.setModelA, []) ∧
    decode [0x40000001#32] = .ok (.setModelB, []) ∧
    decode [0x50000000#32, 0x0000AC44#32, 0x000F08A0#32, 0x70000000#32] =
      .ok (.setRate 44100#32 985248#32, [0x70000000#32]) :=
  ⟨rfl, rfl, rfl, rfl⟩

/-- CLK, RSMP, RENDER: N in 27:0 (95_test_vectors.md section 2.6 and P1; the largest N is R142's field width). -/
theorem test_decode_clocking :
    decode [0x60000555#32] = .ok (.clk 1365#28, []) ∧
    decode [0x6FFFFFFF#32] = .ok (.clk 268435455#28, []) ∧
    decode [0x70000000#32] = .ok (.rsmp, []) ∧
    decode [0x80005DC0#32] = .ok (.render 24000#28, []) :=
  ⟨rfl, rfl, rfl, rfl⟩

/-- MON by its selector (30_encoding.md R146). -/
theorem test_decode_mon :
    decode [0x90000000#32] = .ok (.monWave0, []) ∧
    decode [0x90000001#32] = .ok (.monWave1, []) ∧
    decode [0x90000002#32] = .ok (.monWave2, []) ∧
    decode [0x90000004#32] = .ok (.monEnv0, []) ∧
    decode [0x90000005#32] = .ok (.monEnv1, []) ∧
    decode [0x90000006#32] = .ok (.monEnv2, []) ∧
    decode [0x90000008#32] = .ok (.monFc, []) ∧
    decode [0x90000009#32] = .ok (.monVol, []) :=
  ⟨rfl, rfl, rfl, rfl, rfl, rfl, rfl, rfl⟩

/-- SETEXT: SUB in 27:24, V in 17:16, VAL in 8:0 (30_encoding.md R147; 95_test_vectors.md section 2.6 and P3). -/
theorem test_decode_setext :
    decode [0xA0000001#32] = .ok (.setExtDither 1#1, []) ∧
    decode [0xA1000080#32] = .ok (.setExtGain 0#2 128#9, []) ∧
    decode [0xA1020080#32] = .ok (.setExtGain 2#2 128#9, []) ∧
    decode [0xA10101FF#32] = .ok (.setExtGain 1#2 511#9, []) ∧
    decode [0xA2000100#32] = .ok (.setExtBoost 256#9, []) ∧
    decode [0xA3000006#32] = .ok (.setExtAm 6#3, []) ∧
    decode [0xA4000000#32] = .ok (.setExtRmodeNearest, []) ∧
    decode [0xA4000001#32] = .ok (.setExtRmodeLinear, []) ∧
    decode [0xA4000002#32] = .ok (.setExtRmodeBandlimited, []) :=
  ⟨rfl, rfl, rfl, rfl, rfl, rfl, rfl, rfl, rfl⟩

/-- The opcodes that are no command (30_encoding.md R148 (a); 95_test_vectors.md section 2.6). -/
theorem test_decode_illegal_opcode :
    decode [0x00000000#32] = .ok (.illegalOp0 0#28, []) ∧
    decode [0xB0000000#32] = .ok (.illegalOpB 0#28, []) ∧
    decode [0xC0000001#32] = .ok (.illegalOpC 1#28, []) ∧
    decode [0xD0000002#32] = .ok (.illegalOpD 2#28, []) ∧
    decode [0xE0000003#32] = .ok (.illegalOpE 3#28, []) ∧
    decode [0xFFFFFFFF#32] = .ok (.illegalOpF 0xFFFFFFF#28, []) :=
  ⟨rfl, rfl, rfl, rfl, rfl, rfl⟩

/-- A reserved bit set is no command, whatever the format (30_encoding.md R148 (b); 95_test_vectors.md section 2.6). -/
theorem test_decode_reserved_bits :
    decode [0x10002000#32] = .error (.reservedBits 0x10002000#32) ∧
    decode [0x20000401#32] = .error (.reservedBits 0x20000401#32) ∧
    decode [0x30000001#32] = .error (.reservedBits 0x30000001#32) ∧
    decode [0x40000002#32] = .error (.reservedBits 0x40000002#32) ∧
    decode [0x70000001#32] = .error (.reservedBits 0x70000001#32) ∧
    decode [0x90000010#32] = .error (.reservedBits 0x90000010#32) ∧
    decode [0xA0100000#32] = .error (.reservedBits 0xA0100000#32) ∧
    decode [0xA0000200#32] = .error (.reservedBits 0xA0000200#32) ∧
    decode [0x50000001#32, 0x0000BB80#32, 0x000F08A0#32] = .error (.reservedBits 0x50000001#32) :=
  ⟨rfl, rfl, rfl, rfl, rfl, rfl, rfl, rfl, rfl⟩

/-- A MON selector, a SETEXT sub-operation, voice or value that names nothing (30_encoding.md R146, R147;
95_test_vectors.md section 2.6). -/
theorem test_decode_bad_field :
    decode [0x90000003#32] = .error (.badSelector 0x90000003#32) ∧
    decode [0x90000007#32] = .error (.badSelector 0x90000007#32) ∧
    decode [0x9000000A#32] = .error (.badSelector 0x9000000A#32) ∧
    decode [0xA0000002#32] = .error (.badExtension 0xA0000002#32) ∧
    decode [0xA1030100#32] = .error (.badExtension 0xA1030100#32) ∧
    decode [0xA2000101#32] = .error (.badExtension 0xA2000101#32) ∧
    decode [0xA3000008#32] = .error (.badExtension 0xA3000008#32) ∧
    decode [0xA4000003#32] = .error (.badExtension 0xA4000003#32) ∧
    decode [0xA5000000#32] = .error (.badExtension 0xA5000000#32) :=
  ⟨rfl, rfl, rfl, rfl, rfl, rfl, rfl, rfl, rfl⟩

/-- No word, and a SETRATE without both operand words (30_encoding.md R144). -/
theorem test_decode_waits :
    decode [] = .error .noCommand ∧
    decode [0x50000000#32] = .error .awaitingOperands ∧
    decode [0x50000000#32, 0x0000BB80#32] = .error .awaitingOperands :=
  ⟨rfl, rfl, rfl⟩

/-! ## A small state -/

/-- The reset state of model A, its coefficients as literals (10_state.md R90; W0 and DIVQ from 95_test_vectors.md
section 2.4). -/
def bareChip : Chip :=
  { regs := RegFile.reset
    osc := ⟨Osc.reset, Osc.reset, Osc.reset⟩
    env := ⟨Env.reset, Env.reset, Env.reset⟩
    filt := ⟨0#32, 0#32, 0#32, 0#32, 1449#20, 1448#11⟩
    modelPending := .a
    modelActive := .a
    ext := Ext.initial
    dstate := 1#32
    clock := ⟨48000#32, 985248#32, 0#32⟩ }

/-- A state with a block and nothing at its ports. -/
def stateOf (c : Chip) : State := { chip := c, commands := [], out := [], results := [] }

/-- A state with words at the command port. -/
def waiting (ws : List Word) : State := { stateOf bareChip with commands := ws }

/-- The block after a command. -/
def chipAfter (i : Instr) (c : Chip) : Chip :=
  match exec i (stateOf c) with
  | .next t => t.chip
  | .fault _ => c
  | .refused _ => c

/-- The response a command returns. -/
def responseTo (i : Instr) (c : Chip) : Option Response :=
  match exec i (stateOf c) with
  | .next t => t.results.head?
  | .fault _ => none
  | .refused _ => none

/-- The response a word raises or returns at a step. -/
def responseToWords (ws : List Word) (c : Chip) : Option Response :=
  match step { stateOf c with commands := ws } with
  | .next t => t.results.head?
  | .fault _ => none
  | .refused _ => none

/-- The block with one voice's registers, oscillator and envelope replaced. -/
def withUnits (v : VoiceId) (r : VoiceRegs) (o : Osc) (e : Env) (c : Chip) : Chip :=
  { c with
    regs := { c.regs with voice := c.regs.voice.set v r }
    osc := c.osc.set v o
    env := c.env.set v e }

/-- Voice registers with a frequency (two bytes, high first), a control byte and the two rate bytes. -/
def voiceRegsOf (hi lo control ad sr : Byte) : VoiceRegs := ⟨lo, hi, 0x00#8, 0x08#8, control, ad, sr⟩

/-- The construction state has W0 = 1449, DIVQ = 1448 and the values of 10_state.md R90 and R91 (95_test_vectors.md
section 2.6). -/
theorem test_reset_state : State.reset = stateOf bareChip := by decide +kernel

/-! ## Clock converter (95_test_vectors.md section 2.1) -/

theorem test_clock_accumulator :
    (sampleCycles ⟨48000#32, 985248#32, 0#32⟩, residAfter ⟨48000#32, 985248#32, 0#32⟩) = (20, 25248) ∧
    (sampleCycles ⟨48000#32, 985248#32, 25248#32⟩, residAfter ⟨48000#32, 985248#32, 25248#32⟩) = (21, 2496) ∧
    (sampleCycles ⟨44100#32, 985248#32, 30096#32⟩, residAfter ⟨44100#32, 985248#32, 30096#32⟩) = (23, 1044) ∧
    (sampleCycles ⟨44100#32, 1022727#32, 42135#32⟩, residAfter ⟨44100#32, 1022727#32, 42135#32⟩) = (24, 6462) ∧
    (sampleCycles ⟨1000000#32, 985248#32, 0#32⟩, residAfter ⟨1000000#32, 985248#32, 0#32⟩) = (0, 985248) ∧
    (sampleCycles ⟨3#32, 10#32, 2#32⟩, residAfter ⟨3#32, 10#32, 2#32⟩) = (4, 0) := by decide

/-! ## Oscillator (95_test_vectors.md section 2.2) -/

/-- Registers of three voices from their frequency (high, low) and control bytes. -/
def freqs (h0 l0 c0 h2 l2 c2 : Byte) : PerVoice VoiceRegs :=
  ⟨voiceRegsOf h0 l0 c0 0#8 0#8, VoiceRegs.reset, voiceRegsOf h2 l2 c2 0#8 0#8⟩

/-- Three oscillators from the accumulators of voices 0 and 2. -/
def accs (a0 a2 : BitVec 24) : PerVoice Osc := ⟨⟨a0, lfsrSeed⟩, ⟨0#24, lfsrSeed⟩, ⟨a2, lfsrSeed⟩⟩

/-- Hard sync by the voice before: with SYNC, without it, from a source in TEST. -/
theorem test_osc_sync :
    (oscCycle syncSource (freqs 0x01#8 0x00#8 0x22#8 0x00#8 0x01#8 0x00#8) (accs 0x123456#24 0xFFFFFF#24)).v0.acc =
      0#24 ∧
    (oscCycle syncSource (freqs 0x01#8 0x00#8 0x20#8 0x00#8 0x01#8 0x00#8) (accs 0x123456#24 0xFFFFFF#24)).v0.acc =
      0x123556#24 ∧
    (oscCycle syncSource (freqs 0x00#8 0x05#8 0x22#8 0x00#8 0x01#8 0x08#8) (accs 0x10#24 0#24)).v0.acc = 0x15#24 := by
  decide

/-- Triangle, sawtooth and pulse at PW = 0x800. -/
theorem test_waveforms :
    [0x000000#24, 0x400000#24, 0x7FF800#24, 0x800000#24, 0xC00000#24, 0xFFFFFF#24].map
        (fun a => oscWave .a (voiceRegsOf 0#8 0#8 0x10#8 0#8 0#8) false ⟨a, lfsrSeed⟩) =
      [0x000#12, 0x800#12, 0xFFF#12, 0xFFF#12, 0x7FF#12, 0x000#12] ∧
    [0x400000#24, 0x7FFFFF#24, 0x800000#24, 0xC00000#24, 0xFFFFFF#24].map
        (fun a => oscWave .a (voiceRegsOf 0#8 0#8 0x20#8 0#8 0#8) false ⟨a, lfsrSeed⟩) =
      [0x400#12, 0x7FF#12, 0x800#12, 0xC00#12, 0xFFF#12] ∧
    [0x400000#24, 0x7FFFFF#24, 0x800000#24, 0xFFFFFF#24].map
        (fun a => oscWave .a (voiceRegsOf 0#8 0#8 0x40#8 0#8 0#8) false ⟨a, lfsrSeed⟩) =
      [0x000#12, 0x000#12, 0xFFF#12, 0xFFF#12] := by decide

/-- Ring modulation of the triangle, the pulse corners, TEST, and the selectors that give 0. -/
theorem test_waveform_corners :
    oscWave .a (voiceRegsOf 0#8 0#8 0x14#8 0#8 0#8) true ⟨0x400000#24, lfsrSeed⟩ = 0x7FF#12 ∧
    oscWave .a (voiceRegsOf 0#8 0#8 0x14#8 0#8 0#8) false ⟨0x400000#24, lfsrSeed⟩ = 0x800#12 ∧
    oscWave .a ⟨0#8, 0#8, 0x00#8, 0x00#8, 0x40#8, 0#8, 0#8⟩ false ⟨0#24, lfsrSeed⟩ = 0xFFF#12 ∧
    oscWave .a ⟨0#8, 0#8, 0xFF#8, 0x0F#8, 0x40#8, 0#8, 0#8⟩ false ⟨0xFFEFFF#24, lfsrSeed⟩ = 0x000#12 ∧
    oscWave .a ⟨0#8, 0#8, 0xFF#8, 0x0F#8, 0x40#8, 0#8, 0#8⟩ false ⟨0xFFF000#24, lfsrSeed⟩ = 0xFFF#12 ∧
    oscWave .a (voiceRegsOf 0#8 0#8 0x48#8 0#8 0#8) false ⟨0#24, 0#23⟩ = 0xFFF#12 ∧
    oscWave .a (voiceRegsOf 0#8 0#8 0x00#8 0#8 0#8) false ⟨0xFFFFFF#24, lfsrSeed⟩ = 0x000#12 ∧
    oscWave .a (voiceRegsOf 0#8 0#8 0x90#8 0#8 0#8) false ⟨0xFFFFFF#24, lfsrSeed⟩ = 0x000#12 := by decide

/-- The noise register's first 24 shifts end at 0x0001F0; its output takes the top 12 bits. -/
theorem test_noise_sequence :
    repeatTimes noiseShift 16 lfsrSeed = 0x780001#23 ∧ repeatTimes noiseShift 24 lfsrSeed = 0x0001F0#23 ∧
    oscWave .a (voiceRegsOf 0#8 0#8 0x80#8 0#8 0#8) false ⟨0#24, 0x7FE000#23⟩ = 0xFFC#12 := by decide

/-! ## Envelope (95_test_vectors.md section 2.3) -/

theorem test_envelope_attack :
    envStep 0x00#8 0x00#8 ⟨0#8, .attack, 8#15, 9#15, 0#5, 1#5, false⟩ =
      ⟨1#8, .attack, 0#15, 9#15, 0#5, 1#5, false⟩ ∧
    envStep 0x00#8 0x00#8 ⟨254#8, .attack, 8#15, 9#15, 0#5, 2#5, false⟩ =
      ⟨255#8, .decay, 0#15, 9#15, 0#5, 1#5, false⟩ := by decide

/-- The last step of a decay to 0, the arrival at the sustain level 0x88, and the hold at zero. -/
theorem test_envelope_decay_and_hold :
    envStep 0x00#8 0x00#8 ⟨1#8, .decay, 8#15, 9#15, 29#5, 30#5, false⟩ =
      ⟨0#8, .sustain, 0#15, 9#15, 0#5, 1#5, true⟩ ∧
    envStep 0x00#8 0x80#8 ⟨0x89#8, .decay, 8#15, 9#15, 0#5, 1#5, false⟩ =
      ⟨0x88#8, .sustain, 0#15, 9#15, 0#5, 1#5, false⟩ ∧
    envStep 0x00#8 0x00#8 ⟨0#8, .release, 8#15, 9#15, 0#5, 1#5, true⟩ =
      ⟨0#8, .release, 0#15, 9#15, 0#5, 1#5, true⟩ := by decide

/-- The delay bug's counter goes on at 1 after 32767 (42_envelope.md R271). -/
theorem test_envelope_counter_wrap :
    envStep 0x03#8 0xF0#8 ⟨255#8, .decay, 32767#15, 95#15, 0#5, 1#5, false⟩ =
      ⟨255#8, .decay, 1#15, 95#15, 0#5, 1#5, false⟩ := by decide

/-! ## Cutoff, resonance and filter (95_test_vectors.md section 2.4) -/

theorem test_cutoff_model_a :
    [0#11, 64#11, 512#11, 768#11, 1000#11, 1023#11, 1024#11, 1100#11, 1536#11, 2047#11].map (w0Table .a) =
      [1449#20, 1475#20, 2767#20, 10541#20, 34174#20, 39530#20, 30306#20, 41058#20, 95531#20, 118591#20] := by
  decide +kernel

theorem test_cutoff_model_b :
    [0#11, 64#11, 512#11, 768#11, 1000#11, 1024#11, 1028#11, 1280#11, 1792#11, 2047#11].map (w0Table .b) =
      [0#20, 2635#20, 21741#20, 31624#20, 41658#20, 42824#20, 43015#20, 55342#20, 72472#20, 82354#20] := by
  decide +kernel

theorem test_resonance :
    [0#4, 1#4, 7#4, 8#4, 15#4].map (divqBoosted 0#9) = [1448#11, 1323#11, 872#11, 825#11, 599#11] ∧
    [1#4, 7#4, 15#4].map (divqBoosted 64#9) = [1301#11, 771#11, 450#11] ∧
    [1#4, 8#4, 14#4].map (divqBoosted 192#9) = [1257#11, 495#11, 188#11] ∧
    [1#4, 14#4, 15#4].map (divqBoosted 256#9) = [1235#11, 42#11, 0#11] := by decide

/-- One call of 20 cycles with Vi = 1000: three sub-steps; and the example of 43_filter.md R330, Vi = 0. -/
theorem test_sub_steps :
    subStep 1000 ⟨0#32, 0#32, 0#32, 0#32, 118591#20, 1448#11⟩ 8 =
      ⟨BitVec.ofInt 32 (-1000), 0#32, 0#32, 0#32, 118591#20, 1448#11⟩ ∧
    subStep 1000 ⟨BitVec.ofInt 32 (-1000), 0#32, 0#32, 0#32, 118591#20, 1448#11⟩ 8 =
      ⟨1097#32, 905#32, BitVec.ofInt 32 (-818), 0#32, 118591#20, 1448#11⟩ ∧
    subStep 1000 ⟨1097#32, 905#32, BitVec.ofInt 32 (-818), 0#32, 118591#20, 1448#11⟩ 4 =
      ⟨581#32, 409#32, BitVec.ofInt 32 (-1003), 0#32, 118591#20, 1448#11⟩ ∧
    subStep 0 ⟨BitVec.ofInt 32 (-4000), 0#32, 0#32, 0#32, 118591#20, 1448#11⟩ 8 =
      ⟨8393#32, 3620#32, BitVec.ofInt 32 (-3275), 0#32, 118591#20, 1448#11⟩ := by decide +kernel

/-- The block with a filter state and a MODE_VOL byte. -/
def withFilter (f : Filt) (resFilt modeVol : Byte) (c : Chip) : Chip :=
  { c with filt := f, regs := { c.regs with resFilt := resFilt, modeVol := modeVol } }

/-- The state of the mode-tap vectors. -/
def tapState : Filt := ⟨300#32, BitVec.ofInt 32 (-200), BitVec.ofInt 32 (-1000), 50#32, 1449#20, 1448#11⟩

theorem test_mode_taps :
    [0x0F#8, 0x1F#8, 0x2F#8, 0x3F#8, 0x4F#8, 0x5F#8, 0x6F#8, 0x7F#8].map
        (fun d => filterOutput (withFilter tapState 0#8 d bareChip)) =
      [-6060, -21060, -9060, -24060, -1560, -16560, -4560, -19560] ∧
    [0x0F#8, 0x1F#8, 0x2F#8, 0x4F#8].map (fun d => (outSample (withFilter tapState 0#8 d bareChip)).toInt) =
      [-758, -2633, -1133, -195] := by decide

/-- OFF3 removes voice 2 from the bypass sum, and leaves it in the filter where it is routed. -/
theorem test_off3 :
    (filterClock 1 ⟨128000, 0, 12800⟩ 0 (withFilter bareChip.filt 0x00#8 0x8F#8 bareChip)).filt.vnf = 1000#32 ∧
    (filterClock 1 ⟨128000, 0, 12800⟩ 0 (withFilter bareChip.filt 0x04#8 0x8F#8 bareChip)).filt.vnf = 1000#32 ∧
    (filterClock 1 ⟨128000, 0, 12800⟩ 0 (withFilter bareChip.filt 0x04#8 0x8F#8 bareChip)).filt.vhp =
      BitVec.ofInt 32 (-100) := by decide +kernel

/-! ## Mixer and output (95_test_vectors.md section 2.5) -/

theorem test_voice_sample :
    voiceSample false 0xC00#12 255#8 0#12 = 261120 ∧ voiceSample false 0x000#12 255#8 0#12 = -522240 ∧
    voiceSample false 0xFFF#12 255#8 0#12 = 521985 ∧ voiceSample false 0x000#12 1#8 0#12 = -2048 ∧
    voiceSample true 0xC00#12 255#8 0x800#12 = 130560 ∧ voiceSample true 0x000#12 255#8 0xFFF#12 = -522113 ∧
    voiceSample true 0xFFF#12 255#8 0xFFF#12 = 521857 ∧ voiceSample true 0xFFF#12 255#8 0#12 = 0 := by decide

theorem test_scaling_and_gain :
    scaledInput 521985 0 256#9 = 4078 ∧ scaledInput (-522240) 0 256#9 = -4080 ∧
    scaledInput (-128000) 0 128#9 = -500 ∧ scaledInput (-1) 0 128#9 = -1 ∧ scaledInput 128 0 128#9 = 0 ∧
    scaledInput 521985 0 511#9 = 8140 ∧ scaledInput (-522240) 0 511#9 = -8145 ∧ scaledInput (-384) 0 255#9 = -3 := by
  decide

theorem test_output_shaper :
    [5190, -1, -6810, 190410, -190410, 262143, 262144, -262144, -262145].map (fun x => (conditioned x).toInt) =
      [648, -1, -852, 23801, -23802, 32767, 32767, -32768, -32768] := by decide

theorem test_dither :
    ditherNext 1#32 = 0x00042021#32 ∧ ditherNext 0x00042021#32 = 0x04080601#32 ∧
    ditherState true 1#32 = 0x9DCCA8C5#32 ∧ ditherOffsets true 1#32 = ⟨0, 2, 78⟩ ∧
    ditherOffsets true 0x9DCCA8C5#32 = ⟨9, 71, 22⟩ := by decide

/-! ## Commands (95_test_vectors.md sections 2.2, 2.3, 2.6 and 3) -/

/-- The block before the CONTROL writes of the TEST vector: ACC 0x345678, LFSR 0x123456, CONTROL 0x80. -/
def noisy : Chip :=
  withUnits .v0 (voiceRegsOf 0x10#8 0x00#8 0x80#8 0#8 0#8) ⟨0x345678#24, 0x123456#23⟩ Env.reset bareChip

/-- The same with TEST set. -/
def held : Chip :=
  withUnits .v0 (voiceRegsOf 0x10#8 0x00#8 0x88#8 0#8 0#8) ⟨0#24, 0#23⟩ Env.reset bareChip

/-- Setting TEST clears both registers; clearing it seeds the noise register. -/
theorem test_wr_control_test_bit :
    (chipAfter (.wrControl0 0x88#8) noisy).osc.v0 = ⟨0#24, 0#23⟩ ∧
    (chipAfter (.wrControl0 0x20#8) held).osc.v0 = ⟨0#24, 0x7FFFF8#23⟩ ∧
    (chipAfter (.wrControl0 0x20#8) noisy).osc.v0 = ⟨0x345678#24, 0x123456#23⟩ := by decide

/-- Gate on from reset, gate off in the attack, and a write that keeps the gate. -/
theorem test_wr_control_gate :
    (chipAfter (.wrControl1 0x01#8) bareChip).env.v1 = ⟨0#8, .attack, 0#15, 9#15, 0#5, 1#5, false⟩ ∧
    (chipAfter (.wrControl2 0x20#8) (withUnits .v2 (voiceRegsOf 0#8 0#8 0x21#8 0#8 0x09#8) Osc.reset
      ⟨100#8, .attack, 0#15, 9#15, 0#5, 2#5, false⟩ bareChip)).env.v2 =
      ⟨100#8, .release, 0#15, 977#15, 0#5, 2#5, false⟩ ∧
    (chipAfter (.wrControl1 0x10#8) bareChip).env.v1 = Env.reset := by decide

/-- FREQ and PW: the byte lands in its own register, the upper bits of PW_HI are dropped (P3). -/
theorem test_wr_freq_pw :
    (chipAfter (.wrFreqLo0 0x45#8) bareChip).regs.voice.v0.freqLo = 0x45#8 ∧
    (chipAfter (.wrFreqHi1 0x1D#8) bareChip).regs.voice.v1.freqHi = 0x1D#8 ∧
    (chipAfter (.wrPwLo2 0xAB#8) bareChip).regs.voice.v2.pwLo = 0xAB#8 ∧
    (chipAfter (.wrPwHi0 0xF8#8) bareChip).regs.voice.v0.pwHi = 0x08#8 ∧
    freqOf (voiceRegsOf 0x1D#8 0x45#8 0#8 0#8 0#8) = 7493#16 ∧ pwOf (voiceRegsOf 0#8 0#8 0#8 0#8 0#8) = 0x800#12 := by
  decide

/-- The rate writes of the delay-bug vector, and in RELEASE an ATTACK_DECAY write changes no period. -/
theorem test_wr_rates :
    (chipAfter (.wrAttackDecay0 0x03#8) (withUnits .v0 (voiceRegsOf 0#8 0#8 0x01#8 0x09#8 0xF0#8) Osc.reset
      ⟨255#8, .decay, 500#15, 977#15, 0#5, 1#5, false⟩ bareChip)).env.v0 =
      ⟨255#8, .decay, 500#15, 95#15, 0#5, 1#5, false⟩ ∧
    (chipAfter (.wrAttackDecay1 0x99#8) bareChip).env.v1.rp = 9#15 ∧
    (chipAfter (.wrSustainRelease2 0x09#8) bareChip).env.v2.rp = 977#15 := by decide

/-- P3: SETMODEL B takes effect at the write; FC = 1024 gives W0 = 42824 and RES = 8 gives DIVQ = 825. -/
theorem test_wr_filter_registers :
    (chipAfter (.wrFcHi 0x80#8) { bareChip with modelPending := .b }).filt.w0 = 42824#20 ∧
    (chipAfter (.wrFcHi 0x80#8) { bareChip with modelPending := .b }).modelActive = .b ∧
    (chipAfter (.wrResFilt 0x81#8) bareChip).filt.divq = 825#11 ∧
    (chipAfter (.wrFcLo 0xFF#8) bareChip).regs.fcLo = 0x07#8 ∧
    (chipAfter (.wrModeVol 0x0F#8) { bareChip with modelPending := .b }).filt.w0 = 0#20 := by decide +kernel

/-- An unmapped write does nothing, no model copy either (section 2.6). -/
theorem test_wr_unmapped :
    chipAfter (.wrUnmapped1F 0xAA#8) { bareChip with modelPending := .b } = { bareChip with modelPending := .b } ∧
    responseTo (.wrUnmapped19 0xAA#8) bareChip = some .ok := ⟨rfl, rfl⟩

/-- RD of a stored byte and of an unmapped address (section 2.6). -/
theorem test_rd :
    responseTo (.rd 0x03#5) (withUnits .v0 (voiceRegsOf 0#8 0#8 0#8 0#8 0#8) Osc.reset Env.reset bareChip) =
      some (.okResult 0x8#32) ∧
    responseTo (.rd 0x1F#5) bareChip = some (.okResult 0#32) := ⟨rfl, rfl⟩

/-- MON of a waveform, a level, FC and VOL (P1, P3). -/
theorem test_mon :
    responseTo .monWave0 (withUnits .v0 (voiceRegsOf 0x1D#8 0x45#8 0x21#8 0#8 0xF0#8) ⟨0x09601A#24, lfsrSeed⟩
      Env.reset bareChip) = some (.okResult 0x96#32) ∧
    responseTo .monEnv2 (withUnits .v2 VoiceRegs.reset Osc.reset ⟨9#8, .attack, 1#15, 9#15, 0#5, 30#5, false⟩
      bareChip) = some (.okResult 9#32) ∧
    responseTo .monFc { bareChip with regs := { RegFile.reset with fcHi := 0x80#8 } } = some (.okResult 0x400#32) ∧
    responseTo .monVol (withFilter bareChip.filt 0#8 0x1F#8 bareChip) = some (.okResult 0xF#32) := by decide

/-- RESET keeps the configuration and takes the pending model (section 2.6: from model B back to A). -/
theorem test_reset :
    chipAfter .reset { bareChip with modelActive := .b, dstate := 7#32, filt := tapState } = bareChip ∧
    (chipAfter .reset { bareChip with modelPending := .b }).modelActive = .b := by decide +kernel

/-- SETMODEL writes MODEL_PENDING only (section 2.6). -/
theorem test_setmodel :
    chipAfter .setModelB bareChip = { bareChip with modelPending := .b } ∧
    chipAfter .setModelA { bareChip with modelPending := .b } = bareChip := ⟨rfl, rfl⟩

/-- SETRATE: RESID cleared, or ConfigError and nothing changed (section 2.1). -/
theorem test_setrate :
    (chipAfter (.setRate 44100#32 985248#32) { bareChip with clock := ⟨48000#32, 985248#32, 4992#32⟩ }).clock =
      ⟨44100#32, 985248#32, 0#32⟩ ∧
    responseTo (.setRate 0#32 985248#32) bareChip = some (.configError 0#32 985248#32) ∧
    chipAfter (.setRate 48000#32 0#32) bareChip = bareChip := ⟨rfl, rfl, rfl⟩

/-- CLK 0 latches the bypass sum: LEVEL 10 at WAVE 0 gives VNF = -160 (section 2.5). -/
theorem test_clk_zero :
    (chipAfter (.clk 0#28) (withUnits .v0 VoiceRegs.reset Osc.reset ⟨10#8, .release, 0#15, 9#15, 0#5, 30#5, false⟩
      bareChip)).filt.vnf = BitVec.ofInt 32 (-160) := by decide +kernel

/-- The split-register hazard: one cycle at F = 0x01FF from ACC = 0 (section 2.6). -/
theorem test_clk_one :
    (chipAfter (.clk 1#28) (withUnits .v0 (voiceRegsOf 0x01#8 0xFF#8 0#8 0#8 0#8) Osc.reset Env.reset
      bareChip)).osc.v0.acc = 0x0001FF#24 := by decide +kernel

/-- From reset at VOL = 15 a sample takes 20 cycles and emits -852 (P4). -/
theorem test_rsmp :
    exec .rsmp (stateOf (withFilter bareChip.filt 0#8 0x0F#8 bareChip)) =
      .next { chip := { withFilter bareChip.filt 0#8 0x0F#8 bareChip with
                env := ⟨⟨0#8, .release, 2#15, 9#15, 0#5, 1#5, true⟩, ⟨0#8, .release, 2#15, 9#15, 0#5, 1#5, true⟩,
                  ⟨0#8, .release, 2#15, 9#15, 0#5, 1#5, true⟩⟩
                clock := ⟨48000#32, 985248#32, 25248#32⟩ }
              commands := [], out := [BitVec.ofInt 16 (-852)], results := [.ok] } := by rfl

/-- RENDER 0 emits nothing; in the linear mode RENDER is Unsupported (P4). -/
theorem test_render :
    exec (.render 0#28) (stateOf bareChip) = .next { stateOf bareChip with results := [.ok] } ∧
    responseTo (.render 2#28) { bareChip with ext := { Ext.initial with renderMode := .linear } } =
      some (.unsupported .linear) := ⟨rfl, rfl⟩

/-- SETEXT DITHER, GAIN, AM and RMODE (section 2.6). -/
theorem test_setext :
    (chipAfter (.setExtDither 1#1) bareChip).ext.ditherEn = true ∧
    (chipAfter (.setExtGain 2#2 128#9) bareChip).ext.gain = ⟨256#9, 256#9, 128#9⟩ ∧
    (chipAfter (.setExtAm 2#3) bareChip).ext.amEn = ⟨false, true, false⟩ ∧
    (chipAfter .setExtRmodeLinear bareChip).ext.renderMode = .linear ∧
    (chipAfter .setExtRmodeBandlimited bareChip).ext.renderMode.code = 2#2 ∧
    (chipAfter .setExtRmodeNearest bareChip).ext.renderMode.code = 0#2 := by decide

/-- SETEXT BOOST 256 at RES = 15 gives DIVQ = 0 (sections 2.4 and 2.6). -/
theorem test_setext_boost :
    (chipAfter (.setExtBoost 256#9) (withFilter bareChip.filt 0xF0#8 0#8 bareChip)).filt.divq = 0#11 := by decide

/-- The status codes of words at the port (section 2.6): IllegalCommand with the word, before the rates are looked at;
ConfigError; Unsupported. -/
theorem test_fault_words :
    responseToWords [0x10002000#32] bareChip = some (.illegalCommand 0x10002000#32) ∧
    responseToWords [0x50000001#32, 0#32, 0#32] bareChip = some (.illegalCommand 0x50000001#32) ∧
    responseToWords [0x50000000#32, 0#32, 0x000F08A0#32] bareChip = some (.configError 0#32 985248#32) ∧
    responseToWords [0xB0000000#32] bareChip = some (.illegalCommand 0xB0000000#32) ∧
    responseToWords [0xA2000101#32] bareChip = some (.illegalCommand 0xA2000101#32) ∧
    responseToWords [0x70000001#32] { bareChip with ext := { Ext.initial with renderMode := .linear } } =
      some (.illegalCommand 0x70000001#32) ∧
    responseToWords [0x70000000#32] { bareChip with ext := { Ext.initial with renderMode := .linear } } =
      some (.unsupported .linear) := ⟨rfl, rfl, rfl, rfl, rfl, rfl, rfl⟩

/-- A bad MON selector raises IllegalCommand with the selector, beside the word (45_chip_commands.md R432); a reserved
bit in the same word is seen first. -/
theorem test_mon_bad_selector :
    responseToWords [0x90000003#32] bareChip = some (.illegalSelector 0x90000003#32 3#4) ∧
    responseToWords [0x9000000F#32] bareChip = some (.illegalSelector 0x9000000F#32 0xF#4) ∧
    responseToWords [0x90000013#32] bareChip = some (.illegalCommand 0x90000013#32) ∧
    (Response.illegalSelector 0x90000003#32 3#4).status = 1 := ⟨rfl, rfl, rfl, rfl⟩

/-- The rest of an illegal opcode's word goes into the info (60_exceptions.md R501). -/
theorem test_illegal_ops :
    responseTo (.illegalOp0 0#28) bareChip = some (.illegalCommand 0x00000000#32) ∧
    responseTo (.illegalOpC 0x123#28) bareChip = some (.illegalCommand 0xC0000123#32) ∧
    responseTo (.illegalOpF 0xFFFFFFF#28) bareChip = some (.illegalCommand 0xFFFFFFFF#32) := ⟨rfl, rfl, rfl⟩

/-- FREQ_REG (section 1.1). -/
theorem test_freq_reg :
    [freqReg 440 985248, freqReg (1 / 10) 985248, freqReg 1000 985248, freqReg 3849 985248, freqReg 440 1022727] =
      [7493#16, 2#16, 17028#16, 65535#16, 7218#16] := by decide +kernel

/-! ## For each statement with hypotheses, a state and operands that meet them

Each theorem is named after its obligation and gives, clause by clause, a case at the edge of the clause. -/

/-- The state a command leaves. -/
def stateAfter (i : Instr) (s : State) : State :=
  match exec i s with
  | .next t => t
  | .fault _ => s
  | .refused _ => s

/-- A block in which voice 0 has the given registers, oscillator and envelope. -/
def voiced (r : VoiceRegs) (o : Osc) (e : Env) : State := stateOf (withUnits .v0 r o e bareChip)

/-- A voice gated on, A = 0, D = 9, S = 8, R = 0. -/
def gatedRegs : VoiceRegs := voiceRegsOf 0#8 0#8 0x01#8 0x09#8 0x80#8

/-- O2: the last legal values. -/
theorem test_witness_decode_of_encode :
    (Instr.setExtBoost 256#9).wf = true ∧ (Instr.setExtGain 2#2 511#9).wf = true ∧ Instr.rsmp.wf = true :=
  ⟨rfl, rfl, rfl⟩

/-- O3: words that decode, with words after them. -/
theorem test_witness_encode_of_decode :
    decode [0xA2000100#32, 0x00000000#32] = .ok (.setExtBoost 256#9, [0x00000000#32]) ∧
    decode [0x50000000#32, 3#32, 10#32, 7#32] = .ok (.setRate 3#32 10#32, [7#32]) := ⟨rfl, rfl⟩

/-- O4: one word for each illegal clause, at its edge. -/
theorem test_witness_illegal_words :
    IllegalWord 0x00000000#32 ∧ IllegalWord 0xB0000000#32 ∧ IllegalWord 0x10002000#32 ∧
    IllegalWord 0x20000001#32 ∧ IllegalWord 0x20002000#32 ∧ IllegalWord 0x30000001#32 ∧
    IllegalWord 0x50000001#32 ∧ IllegalWord 0x78000000#32 ∧ IllegalWord 0x40000002#32 ∧
    IllegalWord 0x90000010#32 ∧ IllegalWord 0xA0040000#32 ∧ IllegalWord 0xA0000200#32 ∧
    IllegalWord 0x90000003#32 ∧ IllegalWord 0x90000007#32 ∧ IllegalWord 0x9000000A#32 ∧
    IllegalWord 0x9000000F#32 ∧ IllegalWord 0xA5000000#32 ∧ IllegalWord 0xA0010000#32 ∧
    IllegalWord 0xA0000002#32 ∧ IllegalWord 0xA1030000#32 ∧ IllegalWord 0xA2010000#32 ∧
    IllegalWord 0xA2000101#32 ∧ IllegalWord 0xA3010000#32 ∧ IllegalWord 0xA3000008#32 ∧
    IllegalWord 0xA4010000#32 ∧ IllegalWord 0xA4000004#32 ∧ IllegalWord 0xA4000003#32 := by
  unfold IllegalWord field
  refine ⟨?_, ?_, ?_, ?_, ?_, ?_, ?_, ?_, ?_, ?_, ?_, ?_, ?_, ?_, ?_, ?_, ?_, ?_, ?_, ?_, ?_, ?_, ?_, ?_, ?_, ?_, ?_⟩ <;> decide

/-- O4: the bad selectors at their edges, and illegal words that are none. -/
theorem test_witness_bad_selector :
    BadSelector 0x90000003#32 ∧ BadSelector 0x90000007#32 ∧ BadSelector 0x9000000A#32 ∧ BadSelector 0x9000000F#32 ∧
    ¬BadSelector 0x90000013#32 ∧ ¬BadSelector 0x90000009#32 ∧ ¬BadSelector 0xA5000000#32 := by
  unfold BadSelector field
  refine ⟨?_, ?_, ?_, ?_, ?_, ?_, ?_⟩ <;> decide

/-- O4: legal words, the last value of each clause. -/
theorem test_witness_legal_words :
    ¬IllegalWord 0x10001FFF#32 ∧ ¬IllegalWord 0x20001F00#32 ∧ ¬IllegalWord 0x30000000#32 ∧
    ¬IllegalWord 0x50000000#32 ∧ ¬IllegalWord 0x6FFFFFFF#32 ∧ ¬IllegalWord 0x70000000#32 ∧
    ¬IllegalWord 0x8FFFFFFF#32 ∧ ¬IllegalWord 0x40000001#32 ∧ ¬IllegalWord 0x90000009#32 ∧
    ¬IllegalWord 0x90000006#32 ∧ ¬IllegalWord 0xA0000001#32 ∧ ¬IllegalWord 0xA10201FF#32 ∧
    ¬IllegalWord 0xA2000100#32 ∧ ¬IllegalWord 0xA3000007#32 ∧ ¬IllegalWord 0xA4000002#32 := by
  unfold IllegalWord field
  refine ⟨?_, ?_, ?_, ?_, ?_, ?_, ?_, ?_, ?_, ?_, ?_, ?_, ?_, ?_, ?_⟩ <;> decide

/-- O4, O6: a SETRATE with both operand words and a word after them; a command of one word; a SETRATE that waits. -/
theorem test_witness_port :
    (waiting [0x50000001#32, 1#32, 2#32, 3#32]).commands = 0x50000001#32 :: ([1#32, 2#32] ++ [3#32]) ∧
    field 0x50000001#32 28 4 = 0x5 ∧ (waiting [0x60000005#32, 7#32]).commands = 0x60000005#32 :: ([] ++ [7#32]) ∧
    field 0x60000005#32 28 4 ≠ 0x5 ∧
    (waiting [0x50000000#32, 1#32]).commands = [0x50000000#32, 1#32] ∧ [1#32].length < 2 ∧
    ¬[1#32, 2#32].length < 2 := by decide

/-- O5: a command at the port, and an empty port. -/
theorem test_witness_step_runs_decoded :
    decode (waiting [0x6FFFFFFF#32, 0x70000000#32]).commands = .ok (.clk 0xFFFFFFF#28, [0x70000000#32]) ∧
    (waiting []).commands = [] := ⟨rfl, rfl⟩

/-- O13: the first and last unmapped address, and the last mapped one. -/
theorem test_witness_unmapped :
    0x19 ≤ (0x19#5).toNat ∧ 0x19 ≤ (0x1F#5).toNat ∧ ¬0x19 ≤ (0x18#5).toNat := by decide

/-- O15: a WR to PW_HI and to an unmapped address, a RESET, and a command that is neither. -/
theorem test_witness_registers_change :
    (∃ t, exec (.wrPwHi2 0xFF#8) (stateOf bareChip) = .next t) ∧ opcode (.wrPwHi2 0xFF#8) = 0x1 ∧
    field (wordOf (.wrPwHi2 0xFF#8)) 8 5 = 0x11 ∧
    (∃ t, exec (.wrUnmapped1F 0xFF#8) (stateOf bareChip) = .next t) ∧
    field (wordOf (.wrUnmapped1F 0xFF#8)) 8 5 = 0x1F ∧
    (∃ t, exec .reset (stateOf bareChip) = .next t) ∧ opcode .reset = 0x3 ∧
    (∃ t, exec .setModelB (stateOf bareChip) = .next t) ∧ opcode .setModelB = 0x4 :=
  ⟨⟨_, rfl⟩, rfl, rfl, ⟨_, rfl⟩, rfl, ⟨_, rfl⟩, rfl, ⟨_, rfl⟩, rfl⟩

/-- O20: two blocks of one configuration with different histories. -/
theorem test_witness_reset_forgets :
    configurationOf (stateOf bareChip).chip = configurationOf (voiced gatedRegs ⟨5#24, 9#23⟩ Env.reset).chip ∧
    (stateOf bareChip).chip ≠ (voiced gatedRegs ⟨5#24, 9#23⟩ Env.reset).chip := by decide

/-- O21: after RESET the render mode can be the nearest one. -/
theorem test_witness_silence :
    (stateAfter .reset (stateOf bareChip)).chip.ext.renderMode = .nearest := rfl

/-- O22, O25: a rate of 0, first or second, and two rates at the least that are not. -/
theorem test_witness_rates :
    ((0#32 : Word) = 0#32 ∨ (1#32 : Word) = 0#32) ∧ ((1#32 : Word) = 0#32 ∨ (0#32 : Word) = 0#32) ∧
    ((1#32 : Word) ≠ 0#32 ∧ (1#32 : Word) ≠ 0#32) := by decide

/-- O24: the last mapped write, RESET, and the first unmapped write. -/
theorem test_witness_model_takes_effect :
    (∃ t, exec (.wrModeVol 0#8) (stateOf bareChip) = .next t) ∧ isMappedWrite (.wrModeVol 0#8) ∧
    (∃ t, exec .reset (stateOf bareChip) = .next t) ∧ opcode .reset = 0x3 ∧
    (∃ t, exec (.wrUnmapped19 0#8) (stateOf bareChip) = .next t) ∧
    ¬(isMappedWrite (.wrUnmapped19 0#8) ∨ opcode (.wrUnmapped19 0#8) = 0x3) :=
  ⟨⟨_, rfl⟩, by unfold isMappedWrite; decide, ⟨_, rfl⟩, rfl, ⟨_, rfl⟩, by unfold isMappedWrite; decide⟩

/-- O26, O27: the residual at its edge S_RATE - 1, above it, and at 0. -/
theorem test_witness_clock :
    (⟨3#32, 10#32, 2#32⟩ : ClockAcc).sRate ≠ 0#32 ∧
    (⟨3#32, 10#32, 2#32⟩ : ClockAcc).resid.toNat < (⟨3#32, 10#32, 2#32⟩ : ClockAcc).sRate.toNat ∧
    ¬(⟨3#32, 10#32, 3#32⟩ : ClockAcc).resid.toNat < (⟨3#32, 10#32, 3#32⟩ : ClockAcc).sRate.toNat ∧
    (⟨3#32, 10#32, 0#32⟩ : ClockAcc).resid = 0#32 := by decide

/-- O29: two counts whose sum is the largest. -/
theorem test_witness_clk_split : (0xFFFFFFE#28).toNat + (1#28).toNat < 2 ^ 28 := by decide

/-- O30, first clause: a synced voice whose source wraps by 1. -/
theorem test_witness_osc_synced :
    ∃ s : State, (s.chip.regs.voice.get .v0).control.getLsbD 1 = true ∧
      syncWrap (s.chip.regs.voice.get (voiceBefore .v0)) (s.chip.osc.get (voiceBefore .v0)) :=
  ⟨stateOf { bareChip with
      regs := { RegFile.reset with voice := freqs 0x01#8 0x00#8 0x22#8 0x00#8 0x01#8 0x00#8 }
      osc := accs 0x123456#24 0xFFFFFF#24 }, rfl, by unfold syncWrap; decide⟩

/-- O30, second clause: a synced voice whose source does not wrap, short by 1. -/
theorem test_witness_osc_not_synced :
    ∃ s : State, ¬((s.chip.regs.voice.get .v0).control.getLsbD 1 = true ∧
      syncWrap (s.chip.regs.voice.get (voiceBefore .v0)) (s.chip.osc.get (voiceBefore .v0))) :=
  ⟨stateOf { bareChip with
      regs := { RegFile.reset with voice := freqs 0x01#8 0x00#8 0x22#8 0x00#8 0x01#8 0x00#8 }
      osc := accs 0x123456#24 0xFFFFFE#24 }, by unfold syncWrap; decide⟩

/-- O30, third and fourth clause: bit 19 rises by 1, and with TEST it does not. -/
theorem test_witness_osc_noise :
    (let s := voiced (voiceRegsOf 0#8 0x01#8 0x80#8 0#8 0#8) ⟨0x07FFFF#24, lfsrSeed⟩ Env.reset
     (s.chip.regs.voice.get .v0).control.getLsbD 3 = false ∧ (s.chip.osc.get .v0).acc.getLsbD 19 = false ∧
       (oscSumNat (s.chip.regs.voice.get .v0) (s.chip.osc.get .v0)).testBit 19 = true) ∧
    (let s := voiced (voiceRegsOf 0#8 0x01#8 0x88#8 0#8 0#8) ⟨0#24, 0#23⟩ Env.reset
     ¬((s.chip.regs.voice.get .v0).control.getLsbD 3 = false ∧ (s.chip.osc.get .v0).acc.getLsbD 19 = false ∧
       (oscSumNat (s.chip.regs.voice.get .v0) (s.chip.osc.get .v0)).testBit 19 = true)) := by decide

/-- An envelope one cycle before a rate tick of period 9. -/
def aboutToTick (level : BitVec 8) (p : Phase) (ec ep : BitVec 5) (hold : Bool) : Env :=
  ⟨level, p, 8#15, 9#15, ec, ep, hold⟩

/-- O31: no rate tick, also at the counter's end; a tick the exponential counter takes; one held at zero; one that steps
the level. -/
theorem test_witness_envelope_cycle :
    ¬isRateTick (⟨255#8, .decay, 32767#15, 95#15, 0#5, 1#5, false⟩ : Env) ∧
    (isRateTick (aboutToTick 9#8 .release 0#5 16#5 false) ∧
      ¬passesExponential (aboutToTick 9#8 .release 0#5 16#5 false)) ∧
    (isRateTick (aboutToTick 0#8 .release 0#5 1#5 true) ∧ passesExponential (aboutToTick 0#8 .release 0#5 1#5 true) ∧
      (aboutToTick 0#8 .release 0#5 1#5 true).holdZero = true) ∧
    (isRateTick (aboutToTick 254#8 .attack 0#5 16#5 false) ∧
      passesExponential (aboutToTick 254#8 .attack 0#5 16#5 false) ∧
      (aboutToTick 254#8 .attack 0#5 16#5 false).holdZero = false) := by
  unfold isRateTick passesExponential; decide

/-- The phase of voice 0 after one cycle. -/
def phaseAfterCycle (s : State) : Phase := (stateAfter (.clk 1#28) s).chip.env.v0.phase

/-- O31 (level step), O32, O34: an attack step that stays in ATTACK; ATTACK to DECAY at 255; DECAY to SUSTAIN at the
sustain level; SUSTAIN to DECAY away from it; a release step. -/
theorem test_witness_phases :
    phaseAfterCycle (voiced gatedRegs Osc.reset (aboutToTick 253#8 .attack 0#5 1#5 false)) = .attack ∧
    phaseAfterCycle (voiced gatedRegs Osc.reset (aboutToTick 254#8 .attack 0#5 1#5 false)) = .decay ∧
    phaseAfterCycle (voiced gatedRegs Osc.reset (aboutToTick 0x89#8 .decay 0#5 1#5 false)) = .sustain ∧
    phaseAfterCycle (voiced gatedRegs Osc.reset (aboutToTick 0x87#8 .sustain 0#5 1#5 false)) = .decay ∧
    phaseAfterCycle (voiced gatedRegs Osc.reset (aboutToTick 1#8 .release 0#5 1#5 false)) = .release := by decide

/-- O32, O33, O34: the cycle answers a next state in each of those states. -/
theorem test_witness_cycle_answers (e : Env) :
    ∃ t, exec (.clk 1#28) (voiced gatedRegs Osc.reset e) = .next t := ⟨_, rfl⟩

/-- O33: a held level 0 that a gate-on write ends, and one a cycle keeps. -/
theorem test_witness_zero_holds :
    (stateOf bareChip).chip.env.v0.holdZero = true ∧ (stateOf bareChip).chip.env.v0.level = 0#8 ∧
    (stateAfter (.wrControl0 0x01#8) (stateOf bareChip)).chip.env.v0.holdZero = false ∧
    (stateAfter (.clk 1#28) (stateOf bareChip)).chip.env.v0.holdZero = true := by decide

/-- O34, second clause: a gate-on and a gate-off write change the phase; neither runs a cycle nor is RESET. -/
theorem test_witness_phase_edges :
    (∃ t, exec (.wrControl0 0x01#8) (stateOf bareChip) = .next t) ∧
    (stateAfter (.wrControl0 0x01#8) (stateOf bareChip)).chip.env.v0.phase = .attack ∧
    (stateAfter (.wrControl0 0x00#8) (voiced gatedRegs Osc.reset (aboutToTick 9#8 .attack 0#5 1#5 false))).chip.env.v0.phase
      = .release ∧
    ¬isClocking (.wrControl0 0x01#8) ∧ opcode (.wrControl0 0x01#8) ≠ 0x3 :=
  ⟨⟨_, rfl⟩, rfl, rfl, by unfold isClocking; decide, by decide⟩

/-- O35: the period below, at and above the counter, and the last count before the tick and the tick in each case. -/
theorem test_witness_delay_bug :
    (let e : Env := ⟨255#8, .decay, 500#15, 95#15, 0#5, 1#5, false⟩
     1 ≤ e.rp.toNat ∧ e.rp.toNat ≤ e.rc.toNat ∧ (32361#28).toNat < 2 ^ 15 - e.rc.toNat + e.rp.toNat - 1 ∧
       (32362#28).toNat = 2 ^ 15 - e.rc.toNat + e.rp.toNat - 1) ∧
    (let e : Env := ⟨255#8, .decay, 95#15, 95#15, 0#5, 1#5, false⟩
     e.rp.toNat ≤ e.rc.toNat ∧ (32767#28).toNat = 2 ^ 15 - e.rc.toNat + e.rp.toNat - 1) ∧
    (let e : Env := ⟨255#8, .decay, 50#15, 95#15, 0#5, 1#5, false⟩
     1 ≤ e.rp.toNat ∧ e.rc.toNat < e.rp.toNat ∧ (44#28).toNat < e.rp.toNat - e.rc.toNat ∧
       (45#28).toNat = e.rp.toNat - e.rc.toNat) := by decide

/-- O36: an attack from 0 at the shortest period, with the last k and with one before it. -/
theorem test_witness_attack :
    (let e : Env := ⟨0#8, .attack, 0#15, 9#15, 0#5, 1#5, false⟩
     e.phase = .attack ∧ e.level = 0#8 ∧ e.rc = 0#15 ∧ e.holdZero = false ∧ 1 ≤ e.rp.toNat) ∧
    255 ≤ 255 ∧ 254 ≤ 255 ∧ (254 : Nat) ≠ 255 := by decide

/-- O37: a gate that is on, a byte with it off and one with it on. -/
theorem test_witness_retrigger :
    (voiceRegs (voiced gatedRegs Osc.reset (aboutToTick 9#8 .sustain 0#5 1#5 false)) .v0).control.getLsbD 0 = true ∧
    (0x20#8 : Byte).getLsbD 0 = false ∧ (0x21#8 : Byte).getLsbD 0 = true := by decide

/-- O38, O40, O58: AM off and on, a gain of 256, every extension off. -/
theorem test_witness_extensions :
    bareChip.ext.amEn.get .v0 = false ∧ bareChip.ext.gain.get .v0 = 256#9 ∧ bareChip.ext.ditherEn = false ∧
    bareChip.ext.boost = 0#9 ∧
    ({ bareChip with ext := { Ext.initial with amEn := ⟨true, false, false⟩ } }).ext.amEn.get .v0 = true ∧
    ({ bareChip with ext := { Ext.initial with ditherEn := true } }).ext.gain.get .v2 = 256#9 ∧
    (∀ v, bareChip.ext.gain.get v = 256#9) ∧ (∀ v, bareChip.ext.amEn.get v = false) :=
  ⟨rfl, rfl, rfl, rfl, rfl, rfl, fun v => by cases v <;> rfl, fun v => by cases v <;> rfl⟩

/-- O44: a frequency of 0, one below saturation and one above it. -/
theorem test_witness_freq_reg :
    (0 : Rat) ≤ 0 ∧ (0 : Rat) ≤ 3848 ∧ (0 : Rat) ≤ 20000 ∧ 0 < 985248 := by norm_num

/-- O45, O57: a command that runs no cycle and is neither RESET, SETEXT, SETMODEL, SETRATE nor a CONTROL write. -/
theorem test_witness_writers :
    (∃ t, exec (.wrResFilt 0xF1#8) (stateOf bareChip) = .next t) ∧ ¬isClocking (.wrResFilt 0xF1#8) ∧
    opcode (.wrResFilt 0xF1#8) ≠ 0x3 ∧ opcode (.wrResFilt 0xF1#8) ≠ 0xA ∧ opcode (.wrResFilt 0xF1#8) ≠ 0x4 ∧
    opcode (.wrResFilt 0xF1#8) ≠ 0x5 ∧ opcode (.wrResFilt 0xF1#8) ≠ 0x7 ∧ opcode (.wrResFilt 0xF1#8) ≠ 0x8 ∧
    ¬isControlWrite (.wrResFilt 0xF1#8) :=
  ⟨⟨_, rfl⟩, by unfold isClocking; decide, by decide, by decide, by decide, by decide, by decide, by decide,
    by unfold isControlWrite; decide⟩

/-- O46: nothing routed and the filter at rest; MODE = 0 with the filter anywhere. -/
theorem test_witness_filter_at_rest :
    ((stateOf bareChip).chip.regs.resFilt &&& 0x0F#8 = 0#8 ∧ (stateOf bareChip).chip.filt.vhp = 0#32 ∧
      (stateOf bareChip).chip.filt.vbp = 0#32 ∧ (stateOf bareChip).chip.filt.vlp = 0#32) ∧
    (withFilter tapState 0xF0#8 0x8F#8 bareChip).regs.resFilt &&& 0x0F#8 = 0#8 ∧
    (withFilter tapState 0x01#8 0x8F#8 bareChip).regs.modeVol &&& 0x70#8 = 0#8 ∧
    (∃ t, exec (.clk 8#28) (stateOf bareChip) = .next t) := ⟨by decide, by decide, by decide, ⟨_, rfl⟩⟩

/-- O48: a first and a last point of the lists. -/
theorem test_witness_knots : (0, 220) ∈ cutoffPoints .a ∧ (2047, 12500) ∈ cutoffPoints .b := by decide

/-- O48: a first segment, the jump of model A between two doubled points at both its ends, and a last segment. -/
theorem test_witness_segments :
    ([(0, 220), (0, 220), (128, 230), (256, 250)] <:+: cutoffPoints .a ∧ 0 < 128 ∧ 0 ≤ 0 ∧ 0 ≤ 128) ∧
    ([(1023, 6000), (1023, 6000), (1024, 4600), (1024, 4600)] <:+: cutoffPoints .a ∧ 1023 < 1024 ∧ 1023 ≤ 1023 ∧
      1024 ≤ 1024) ∧
    ([(1792, 11000), (1920, 11700), (2047, 12500), (2047, 12500)] <:+: cutoffPoints .b ∧ 1920 < 2047 ∧ 1920 ≤ 2047 ∧
      2047 ≤ 2047) := by decide

/-- O48's cubic by hand, off its knots: a straight line, and end slopes 0 and 0 (half way is half the height). -/
theorem test_hermite_by_hand :
    hermite (1023, 6000) (1024, 4600) (-1400) (-1400) 1023 = 6000 ∧
    hermite (0, 0) (2, 8) 4 4 (1 / 2) = 2 ∧ hermite (0, 0) (2, 8) 0 0 1 = 4 ∧
    startSlope (0, 0) (0, 0) (1, 3) (2, 4) = 7 / 2 ∧ endSlope (0, 0) (1, 3) (2, 4) (2, 4) = 1 / 2 := by
  norm_num [hermite, startSlope, endSlope, secant]

/-- O50, O54, O55: the last legal boost and the first illegal one. -/
theorem test_witness_boost : (256#9).toNat ≤ 256 ∧ 256 < (257#9).toNat := by decide

/-- O51, O52, O53: the three render modes, and a RSMP refused in an open one. -/
theorem test_witness_render_modes :
    (stateOf bareChip).chip.ext.renderMode = .nearest ∧
    (stateAfter .setExtRmodeLinear (stateOf bareChip)).chip.ext.renderMode = .linear ∧
    (stateAfter .setExtRmodeBandlimited (stateOf bareChip)).chip.ext.renderMode = .bandlimited ∧
    (∃ t, exec .rsmp (stateAfter .setExtRmodeLinear (stateOf bareChip)) = .next t) := ⟨rfl, rfl, rfl, ⟨_, rfl⟩⟩

/-- O56: a command that faults, one with a result, one with neither, one that emits. -/
theorem test_witness_responses :
    (∃ t, exec (.illegalOpB 0#28) (stateOf bareChip) = .next t ∧ t.results = [] ++ [.illegalCommand 0xB0000000#32]) ∧
    (∃ t, exec (.rd 0x04#5) (stateOf bareChip) = .next t ∧ t.results = [] ++ [.okResult 0#32]) ∧
    (∃ t, exec .setModelA (stateOf bareChip) = .next t ∧ t.results = [] ++ [.ok]) ∧
    (∃ t, exec .rsmp (stateOf bareChip) = .next t) :=
  ⟨⟨_, rfl, rfl⟩, ⟨_, rfl, rfl⟩, ⟨_, rfl, rfl⟩, ⟨_, rfl⟩⟩

/-- O60: a state that meets the invariant and is not the reset state, voice 0 in TEST with the gate on. -/
def invariantChip : Chip :=
  withUnits .v0 (voiceRegsOf 0x10#8 0x00#8 0x89#8 0x09#8 0x80#8) ⟨0#24, 0#23⟩
    ⟨0#8, .attack, 0#15, 9#15, 0#5, 1#5, false⟩ bareChip

theorem test_witness_invariant :
    ChipInv invariantChip ∧ (∃ t, step { stateOf invariantChip with commands := [0x60000001#32] } = .next t) :=
  ⟨{ osc := fun v => by cases v <;> exact ⟨by decide, by decide⟩
     env := fun v => by cases v <;> exact ⟨by decide, by decide, by decide, by decide, by decide⟩
     filter := ⟨fun v => by cases v <;> decide, by decide, by decide +kernel, by decide, by decide⟩
     clock := ⟨by decide, by decide, by decide, by decide⟩ }, ⟨_, rfl⟩⟩

end Sys2Proof.Tests
end

section
/-! SUPPORT. Silence and the volume: what a voice sample, an output sample and a run of rendered samples are when their
last factor is 0 (44_voice_mixer.md R370, R371; 43_filter.md R332). -/

namespace Sys2Proof.Machine

/-- A voice at level 0 is silent, with or without amplitude modulation (44_voice_mixer.md R370, R371). -/
theorem voiceSample_of_level_zero (am : Bool) (wave modulator : BitVec 12) : voiceSample am wave 0#8 modulator = 0 := by
  cases am <;> simp [voiceSample, asr]

/-- At volume 0 the output is 0, whatever the filter and the mixer hold (43_filter.md R332, 44_voice_mixer.md R380). -/
theorem outSample_of_volume_zero {c : Chip} (hv : volOf c.regs = 0#4) : outSample c = 0#16 := by
  have hz : filterOutput c = 0 := by simp [filterOutput, hv]
  rw [outSample, hz]
  rfl

/-- Rendering leaves the volume alone, so at volume 0 every sample is 0 (45_chip_commands.md R442). -/
theorem renderSamples_of_volume_zero (n : Nat) {c : Chip} (hv : volOf c.regs = 0#4) :
    renderSamples n c = List.replicate n 0#16 := by
  induction n generalizing c with
  | zero => rfl
  | succ n ih =>
    obtain ⟨hregs, -⟩ := renderOne_frame c
    have hv' : volOf (renderOne c).regs = 0#4 := by rw [hregs, hv]
    rw [renderSamples, ih hv', outSample_of_volume_zero hv', List.replicate_succ]

/-- RESET leaves every level at 0 (10_state.md R90). -/
theorem resetBody_level (c : Chip) (v : VoiceId) : (c.resetBody.env.get v).level = 0#8 := by
  cases v <;> rfl

/-- RESET leaves the volume at 0 (10_state.md R90). -/
theorem resetBody_volume (c : Chip) : volOf c.resetBody.regs = 0#4 := rfl

/-- A RENDER in the nearest mode (45_chip_commands.md R442). -/
theorem execRender_of_nearest {s : State} (hm : s.chip.ext.renderMode = .nearest) (n : BitVec 28) :
    execRender n s = .next (finishEmitting (renderChip n.toNat s.chip) (renderSamples n.toNat s.chip) s) :=
  if_pos hm

end Sys2Proof.Machine

namespace Sys2Proof.Claims

open Sys2Proof.Machine

/-- Settles O21: RESET leaves every level and the volume at 0, and rendering leaves the volume there. -/
theorem silenceAfterReset : Obligations.SilenceAfterReset := by
  intro s n
  refine ⟨finish s.chip.resetBody s, rfl, fun v => ?_, outSample_of_volume_zero (resetBody_volume _), fun hm => ?_⟩
  · simp only [voiceSamples, get_ofFn, finish_chip, resetBody_level, voiceSample_of_level_zero]
  · refine ⟨_, execRender_of_nearest hm n, ?_⟩
    rw [finishEmitting_out, finish_chip, renderSamples_of_volume_zero _ (resetBody_volume _)]

end Sys2Proof.Claims
end

section
/-! SUPPORT. The frame of every command: a part of the block changes only under the opcodes whose operation on the block
can change it (10_state.md R54 to R63). -/

namespace Sys2Proof.Machine

/-- Rendered samples leave the extension settings, the pending model and the two rates alone. -/
theorem renderChip_frame (n : Nat) (c : Chip) :
    (renderChip n c).ext = c.ext ∧ (renderChip n c).modelPending = c.modelPending ∧
      (renderChip n c).clock.sRate = c.clock.sRate ∧ (renderChip n c).clock.cRate = c.clock.cRate := by
  refine ⟨repeatTimes_part (f := renderOne) Chip.ext (fun a => ?_) n c,
    repeatTimes_part (f := renderOne) Chip.modelPending (fun a => ?_) n c,
    repeatTimes_part (f := renderOne) (fun a => a.clock.sRate) (fun a => ?_) n c,
    repeatTimes_part (f := renderOne) (fun a => a.clock.cRate) (fun a => ?_) n c⟩ <;>
    obtain ⟨-, hpending, -, hext, hclock, -⟩ := renderOne_frame a
  · exact hext
  · exact hpending
  · rw [hclock, clockAdvance_sRate]
  · rw [hclock, clockAdvance_cRate]

/-- LEVEL, RC, EC and EP: the fields of an envelope that only cycles move (10_state.md R57). -/
def envCounters (e : Env) : BitVec 8 × BitVec 15 × BitVec 5 × BitVec 5 := (e.level, e.rc, e.ec, e.ep)

theorem envCounters_eq_iff {e e' : Env} :
    envCounters e = envCounters e' ↔ e.level = e'.level ∧ e.rc = e'.rc ∧ e.ec = e'.ec ∧ e.ep = e'.ep := by
  simp [envCounters]

/-- The gate edges move none of them (42_envelope.md R280). -/
theorem envCounters_envWriteControl (old new ad sr : Byte) (e : Env) :
    envCounters (envWriteControl old new ad sr e) = envCounters e := by
  unfold envWriteControl
  split_ifs <;> rfl

/-- The rate updates move none of them (42_envelope.md R281, R282). -/
theorem envCounters_rate_updates (d : Byte) (e : Env) :
    envCounters (envWriteAttackDecay d e) = envCounters e ∧
      envCounters (envWriteSustainRelease d e) = envCounters e := by
  constructor
  · unfold envWriteAttackDecay; split <;> rfl
  · unfold envWriteSustainRelease; split <;> rfl

/-- No mapped write moves them. -/
theorem envCounters_regWrite (r : RegName) (d : Byte) (c : Chip) (u : VoiceId) :
    envCounters ((regWrite r d c).env.get u) = envCounters (c.env.get u) := by
  by_cases hc : r = .control u
  · rw [hc, (regWrite_control u d c).2, envCounters_envWriteControl]
  by_cases ha : r = .attackDecay u
  · rw [ha, (regWrite_rates u d c).1, (envCounters_rate_updates _ _).1]
  by_cases hs : r = .sustainRelease u
  · rw [hs, (regWrite_rates u d c).2, (envCounters_rate_updates _ _).2]
  rw [regWrite_env_other hc ha hs]

end Sys2Proof.Machine

namespace Sys2Proof.Claims

open Sys2Proof.Machine

/-- A WR of a voice's CONTROL register is a control write in the words of the statements (30_encoding.md R135). -/
theorem isControlWrite_wrTo_control (v : VoiceId) (d : Byte) : isControlWrite (wrTo (.control v) d) := by
  unfold isControlWrite opcode
  cases v
  · have hw : wordOf (wrTo (.control .v0) d) = wordWr 0x04#5 d := rfl
    simp [hw]
  · have hw : wordOf (wrTo (.control .v1) d) = wordWr 0x0B#5 d := rfl
    simp [hw]
  · have hw : wordOf (wrTo (.control .v2) d) = wordWr 0x12#5 d := rfl
    simp [hw]

/-- A mapped write that is no control write leaves the oscillators alone. -/
theorem regWrite_osc_of_not_control {r : RegName} {d : Byte} (hn : ¬isControlWrite (wrTo r d)) (c : Chip) :
    (regWrite r d c).osc = c.osc :=
  perVoice_ext fun v => regWrite_osc_other (fun hr => hn (by rw [hr]; exact isControlWrite_wrTo_control v d)) d c

/-- A part of the block that the operation of the command's opcode leaves alone, the command leaves alone. An operation
that is not named leaves it alone by definition. -/
theorem part_of_exec {α : Type} (part : Chip → α) {i : Instr} {s t : State} (h : exec i s = .next t)
    (write : opcode i = 0x1 → ∀ r d c, i = wrTo r d → part (regWrite r d c) = part c := by intros; rfl)
    (reset : opcode i = 0x3 → ∀ c, part c.resetBody = part c := by intros; rfl)
    (model : opcode i = 0x4 → ∀ m c, part (setModel m c) = part c := by intros; rfl)
    (rates : opcode i = 0x5 → ∀ k c, part { c with clock := k } = part c := by intros; rfl)
    (clk : opcode i = 0x6 → ∀ n c, part (chipClock n c) = part c := by intros; rfl)
    (render : opcode i = 0x7 ∨ opcode i = 0x8 → ∀ n c, part (renderChip n c) = part c := by intros; rfl)
    (extension : opcode i = 0xA → ∀ e c, part (setExt e c) = part c := by intros; rfl)
    (boost : opcode i = 0xA → ∀ e c, part (recomputeDivq (setExt e c)) = part c := by intros; rfl) :
    part t.chip = part s.chip := by
  rcases exec_shape h with ⟨ho, r, d, hi, rfl⟩ | ⟨-, -, rfl⟩ | ⟨-, _, rfl⟩ | ⟨ho, rfl⟩ | ⟨ho, m, rfl⟩ |
    ⟨ho, a, b, -, -, rfl⟩ | ⟨ho, n, rfl⟩ | ⟨ho, n, rfl⟩ | ⟨ho, e, rfl, -⟩ | ⟨ho, b, -, rfl⟩ | ⟨-, _, -, -, rfl⟩
  · exact write ho r d _ hi
  · rfl
  · rfl
  · exact reset ho _
  · exact model ho m _
  · exact rates ho _ _
  · exact clk ho n _
  · exact render ho n _
  · exact extension ho e _
  · exact boost ho _ _
  · rfl

section

variable {i : Instr} {s t : State} (h : exec i s = .next t)
include h

/-- Only SETEXT writes the extension settings (10_state.md R61). -/
theorem ext_of_exec (hext : opcode i ≠ 0xA) : t.chip.ext = s.chip.ext :=
  part_of_exec Chip.ext h
    (write := fun _ r _ _ _ => by cases r <;> rfl)
    (clk := fun _ n c => by obtain ⟨-, -, -, hk, -⟩ := chipClock_frame n c; exact hk)
    (render := fun _ n c => (renderChip_frame n c).1)
    (extension := fun ho => absurd ho hext) (boost := fun ho => absurd ho hext)

/-- Only SETMODEL writes MODEL_PENDING (10_state.md R60). -/
theorem modelPending_of_exec (hmodel : opcode i ≠ 0x4) : t.chip.modelPending = s.chip.modelPending :=
  part_of_exec Chip.modelPending h
    (write := fun _ r _ _ _ => by cases r <;> rfl)
    (model := fun ho => absurd ho hmodel)
    (clk := fun _ n c => by obtain ⟨-, hk, -⟩ := chipClock_frame n c; exact hk)
    (render := fun _ n c => by obtain ⟨-, hk, -⟩ := renderChip_frame n c; exact hk)

/-- Only SETRATE writes the rates (10_state.md R63). -/
theorem rates_of_exec (hrate : opcode i ≠ 0x5) :
    t.chip.clock.sRate = s.chip.clock.sRate ∧ t.chip.clock.cRate = s.chip.clock.cRate := by
  have hclk : ∀ n c, (chipClock n c).clock = c.clock := fun n c => by
    obtain ⟨-, -, -, -, hk, -⟩ := chipClock_frame n c; exact hk
  constructor
  · exact part_of_exec (fun c => c.clock.sRate) h
      (write := fun _ r _ _ _ => by cases r <;> rfl)
      (rates := fun ho => absurd ho hrate)
      (clk := fun _ n c => congrArg ClockAcc.sRate (hclk n c))
      (render := fun _ n c => by obtain ⟨-, -, hk, -⟩ := renderChip_frame n c; exact hk)
  · exact part_of_exec (fun c => c.clock.cRate) h
      (write := fun _ r _ _ _ => by cases r <;> rfl)
      (rates := fun ho => absurd ho hrate)
      (clk := fun _ n c => congrArg ClockAcc.cRate (hclk n c))
      (render := fun _ n c => by obtain ⟨-, -, -, hk⟩ := renderChip_frame n c; exact hk)

/-- Only SETRATE, RSMP, RENDER and RESET write RESID: CLK does not (10_state.md R63). -/
theorem resid_of_exec (hrate : opcode i ≠ 0x5) (hrsmp : opcode i ≠ 0x7) (hrender : opcode i ≠ 0x8)
    (hreset : opcode i ≠ 0x3) : t.chip.clock.resid = s.chip.clock.resid :=
  part_of_exec (fun c => c.clock.resid) h
    (write := fun _ r _ _ _ => by cases r <;> rfl)
    (reset := fun ho => absurd ho hreset)
    (rates := fun ho => absurd ho hrate)
    (clk := fun _ n c => by obtain ⟨-, -, -, -, hk, -⟩ := chipClock_frame n c; exact congrArg ClockAcc.resid hk)
    (render := fun ho => absurd ho (not_or_intro hrsmp hrender))

/-- Only the clocking commands and RESET write DSTATE (10_state.md R62). -/
theorem dstate_of_exec (hclk : ¬isClocking i) (hreset : opcode i ≠ 0x3) : t.chip.dstate = s.chip.dstate :=
  part_of_exec Chip.dstate h
    (write := fun _ r _ _ _ => by cases r <;> rfl)
    (reset := fun ho => absurd ho hreset)
    (clk := fun ho => absurd (.inl ho) hclk)
    (render := fun ho => absurd (.inr ho) hclk)

/-- Only the clocking commands, RESET and the CONTROL writes write an oscillator (10_state.md R54, R55). -/
theorem osc_of_exec (hclk : ¬isClocking i) (hreset : opcode i ≠ 0x3) (hctrl : ¬isControlWrite i) :
    t.chip.osc = s.chip.osc :=
  part_of_exec Chip.osc h
    (write := fun _ _ _ c hi => regWrite_osc_of_not_control (hi ▸ hctrl) c)
    (reset := fun ho => absurd ho hreset)
    (clk := fun ho => absurd (.inl ho) hclk)
    (render := fun ho => absurd (.inr ho) hclk)

/-- Only the clocking commands and RESET write LEVEL, RC, EC and EP (10_state.md R57). -/
theorem envCounters_of_exec (hclk : ¬isClocking i) (hreset : opcode i ≠ 0x3) (v : VoiceId) :
    envCounters (t.chip.env.get v) = envCounters (s.chip.env.get v) :=
  part_of_exec (fun c => envCounters (c.env.get v)) h
    (write := fun _ r d c _ => envCounters_regWrite r d c v)
    (reset := fun ho => absurd ho hreset)
    (clk := fun ho => absurd (.inl ho) hclk)
    (render := fun ho => absurd (.inr ho) hclk)

end

/-- Settles O57, one part of the block at a time. -/
theorem stateWriters : Obligations.StateWriters := fun _ _ _ h =>
  ⟨ext_of_exec h, modelPending_of_exec h, rates_of_exec h, resid_of_exec h, dstate_of_exec h, osc_of_exec h,
    fun hclk hreset v => envCounters_eq_iff.mp (envCounters_of_exec h hclk hreset v)⟩

end Sys2Proof.Claims
end

section
/-! SUPPORT. Construction meets the invariant: the reset values unit by unit (10_state.md R90). -/

namespace Sys2Proof.Machine

/-- An oscillator at reset, under cleared registers: TEST is clear and the seed is not 0. -/
theorem oscInv_reset : OscInv VoiceRegs.reset Osc.reset := ⟨by decide, by decide⟩

/-- An envelope at reset, under cleared registers: in RELEASE with the gate off, held at level 0. -/
theorem envInv_reset : EnvInv VoiceRegs.reset Env.reset :=
  { ep_legal := by decide
    ec_below := by decide
    held_is_zero := fun _ => rfl
    rp_active := rfl
    gate_phase := by decide }

/-- The filter at construction: the coefficients are those of FC = 0 and RES = 0, which the cleared registers name
(43_filter.md R326). -/
theorem constructed_filterInv (host chip : Word) : FilterInv (Chip.constructed host chip) :=
  { pw_hi_masked := fun v => by cases v <;> exact BitVec.zero_and
    fc_lo_masked := BitVec.zero_and
    w0_current := congrArg (w0Table Config.model0) (by decide : 0#11 = fcOf RegFile.reset)
    divq_current := congrArg (divqBoosted Ext.initial.boost) (by decide : 0#4 = resOf RegFile.reset)
    boost_legal := (by decide : Ext.initial.boost.toNat ≤ 256) }

/-- The clock at construction: RESID is 0, which is below any rate that is not 0 (70_reset_and_hazards.md R600). -/
theorem constructed_clockInv {host chip : Word} (hhost : host ≠ 0#32) (hchip : chip ≠ 0#32) :
    ClockInv (Chip.constructed host chip) :=
  { s_rate_nonzero := hhost
    c_rate_nonzero := hchip
    resid_below := Nat.pos_of_ne_zero fun hz => hhost (BitVec.eq_of_toNat_eq hz)
    dstate_nonzero := (by decide : ditherSeed ≠ 0#32) }

/-- Whatever block construction makes meets the invariant. -/
theorem constructed_chipInv {host chip : Word} (hhost : host ≠ 0#32) (hchip : chip ≠ 0#32) :
    ChipInv (Chip.constructed host chip) :=
  { osc := fun v => by cases v <;> exact oscInv_reset
    env := fun v => by cases v <;> exact envInv_reset
    filter := constructed_filterInv host chip
    clock := constructed_clockInv hhost hchip }

end Sys2Proof.Machine

namespace Sys2Proof.Claims

open Sys2Proof.Machine

/-- Settles O59: the machine after reset is a construction at rates that are not 0. -/
theorem resetMeetsInvariant : Obligations.ResetMeetsInvariant :=
  constructed_chipInv (by decide : Config.hostRate ≠ 0#32) (by decide : Config.chipRate ≠ 0#32)

end Sys2Proof.Claims
end

section
/-! SUPPORT. The command port and the unmapped addresses: what a step does on each answer of the decoder that needs no
fault, and what the register map says above 0x18 (20_memory.md R101, R111). -/

namespace Sys2Proof.Machine

/-- A decoded command runs on the state without its words (20_memory.md R111). -/
theorem step_of_decode_ok {s : State} {i : Instr} {rest : List Word} (h : decode s.commands = .ok (i, rest)) :
    step s = exec i { s with commands := rest } := by
  rw [step, fetchAndRun, h]

/-- With no word at the port the block holds (60_exceptions.md R516). -/
theorem step_of_commands_nil {s : State} (h : s.commands = []) : step s = .next s := by
  have hd : decode s.commands = .error .noCommand := by rw [h, decode]
  rw [step, fetchAndRun, hd]

/-- No register stands at 0x19 to 0x1F (20_memory.md R101). -/
theorem regAt_eq_none {a : Addr} (h : 0x19 ≤ a.toNat) : regAt a = none := by
  rw [regAt, if_neg (by omega), if_neg (by omega), if_neg (by omega), if_neg (by omega), if_neg (by omega),
    if_neg (by omega), if_neg (by omega)]

/-- An address with no register reads as 0x00 (20_memory.md R101). -/
theorem readAddr_of_unmapped (f : RegFile) {a : Addr} (h : 0x19 ≤ a.toNat) : readAddr f a = 0x00#8 := by
  rw [readAddr, regAt_eq_none h]

/-- A RD at an unmapped address answers 0x00 and leaves the block (20_memory.md R101). -/
theorem execRd_of_unmapped {a : Addr} (h : 0x19 ≤ a.toNat) (s : State) : execRd a s = .next (answer 0x00#32 s) := by
  rw [execRd, readAddr_of_unmapped _ h, BitVec.setWidth_zero]

end Sys2Proof.Machine

namespace Sys2Proof.Claims

open Sys2Proof.Machine

/-- Settles O5. -/
theorem stepRunsDecodedCommand : Obligations.StepRunsDecodedCommand :=
  ⟨fun _ _ _ => step_of_decode_ok, fun _ => step_of_commands_nil⟩

/-- An unmapped write returns status OK and nothing else (20_memory.md R101). -/
theorem unmappedWrite_eq_done (s : State) : unmappedWrite s = .next (done s) := rfl

/-- Settles O13: the seven unmapped writes are one operation, and no register stands at a read address above 0x18. -/
theorem unmappedAddressesDoNothing : Obligations.UnmappedAddressesDoNothing :=
  ⟨fun _ s =>
    have hw := unmappedWrite_eq_done s
    ⟨hw, hw, hw, hw, hw, hw, hw⟩,
    fun _ s h => execRd_of_unmapped h s⟩

end Sys2Proof.Claims
end

section
/-! SUPPORT. Decoding what was encoded: the decoder on a word of each format (30_encoding.md R142 to R147). -/

namespace Sys2Proof

/-! ## Reserved bits and parts of VAL -/

theorem reserved_wordWr (a : Addr) (d : Byte) : (wordWr a d).extractLsb' 13 15 = 0#15 :=
  field_eq fun i hi => by
    rw [bit_wordWr, if_neg (by omega), if_neg (by omega), if_pos (by omega), BitVec.getLsbD_zero]

theorem reserved_wordRd (a : Addr) : (wordRd a).extractLsb' 13 15 = 0#15 ∧ dataField (wordRd a) = 0#8 :=
  ⟨field_eq fun i hi => by
    rw [bit_wordRd, if_neg (by omega), if_neg (by omega), if_pos (by omega), BitVec.getLsbD_zero],
  field_eq fun i hi => by rw [bit_wordRd, if_pos (by omega), BitVec.getLsbD_zero]⟩

theorem extReservedZero_iff {w : Word} :
    extReservedZero w = true ↔ w.extractLsb' 18 6 = 0#6 ∧ w.extractLsb' 9 7 = 0#7 := by
  simp [extReservedZero]

theorem reserved_wordExt (sub : BitVec 4) (v : BitVec 2) (val : BitVec 9) :
    extReservedZero (wordExt sub v val) = true :=
  extReservedZero_iff.mpr
    ⟨field_eq fun i hi => by
      rw [bit_wordExt, if_neg (by omega), if_neg (by omega), if_neg (by omega), if_pos (by omega),
        BitVec.getLsbD_zero],
    field_eq fun i hi => by rw [bit_wordExt, if_neg (by omega), if_pos (by omega), BitVec.getLsbD_zero]⟩

/-- A part of VAL, read from the word. -/
theorem valPart_wordExt (sub : BitVec 4) (v : BitVec 2) (val : BitVec 9) {lo len : Nat} (h : lo + len ≤ 9) :
    (wordExt sub v val).extractLsb' lo len = val.extractLsb' lo len :=
  field_eq fun i hi => by
    rw [bit_wordExt, if_pos (by omega), BitVec.getLsbD_extractLsb', decide_eq_true hi, Bool.true_and]

/-! ## The decoder on each format -/

/-- A command of one word leaves the words after it. -/
theorem decode_one {w : Word} {i : Instr} (hop : opField w ≠ 0x5#4) (h : decodeOne w = .ok i) (rest : List Word) :
    decode (w :: rest) = .ok (i, rest) := by
  simp [decode, hop, h, Except.map]

theorem decode_wordWr (a : Addr) (d : Byte) (rest : List Word) :
    decode (wordWr a d :: rest) = .ok (wrCommand a d, rest) :=
  decode_one (by simp) (by simp [decodeOne, decodeWr, reserved_wordWr]) rest

theorem decode_wordRd (a : Addr) (rest : List Word) : decode (wordRd a :: rest) = .ok (.rd a, rest) :=
  decode_one (by simp) (by simp [decodeOne, decodeRd, reserved_wordRd]) rest

theorem decode_wordMon {sel : BitVec 4} {i : Instr} (h : decodeMon (wordMon sel) = .ok i) (rest : List Word) :
    decode (wordMon sel :: rest) = .ok (i, rest) :=
  decode_one (by simp) (by simpa [decodeOne] using h) rest

theorem decode_wordExt {sub : BitVec 4} {v : BitVec 2} {val : BitVec 9} {i : Instr}
    (h : decodeExt (wordExt sub v val) = .ok i) (rest : List Word) :
    decode (wordExt sub v val :: rest) = .ok (i, rest) :=
  decode_one (by simp) (by simpa [decodeOne] using h) rest

theorem decodeExt_dither (d : BitVec 1) :
    decodeExt (wordExt 0#4 0#2 (d.zeroExtend 9)) = .ok (.setExtDither d) := by
  have hhigh : (d.zeroExtend 9).extractLsb' 1 8 = 0#8 := by revert d; decide
  have hlow : (d.zeroExtend 9).extractLsb' 0 1 = d := by revert d; decide
  rw [decodeExt, if_pos (reserved_wordExt _ _ _), subField_wordExt]
  simp [decodeDither, valPart_wordExt, hhigh, hlow]

theorem decodeExt_gain {v : BitVec 2} (hv : v ≠ 3#2) (g : BitVec 9) :
    decodeExt (wordExt 1#4 v g) = .ok (.setExtGain v g) := by
  rw [decodeExt, if_pos (reserved_wordExt _ _ _), subField_wordExt]
  simp [decodeGain, hv]

theorem decodeExt_boost {b : BitVec 9} (hb : b.toNat ≤ 256) :
    decodeExt (wordExt 2#4 0#2 b) = .ok (.setExtBoost b) := by
  rw [decodeExt, if_pos (reserved_wordExt _ _ _), subField_wordExt]
  simp [decodeBoost, hb]

theorem decodeExt_am (m : BitVec 3) : decodeExt (wordExt 3#4 0#2 (m.zeroExtend 9)) = .ok (.setExtAm m) := by
  have hhigh : (m.zeroExtend 9).extractLsb' 3 6 = 0#6 := by revert m; decide
  have hlow : (m.zeroExtend 9).extractLsb' 0 3 = m := by revert m; decide
  rw [decodeExt, if_pos (reserved_wordExt _ _ _), subField_wordExt]
  simp [decodeAm, valPart_wordExt, hhigh, hlow]

/-- SETRATE takes its two operand words. -/
theorem decode_setRate (host chip : Word) (rest : List Word) :
    decode (wordZ 0x5#4 :: host :: chip :: rest) = .ok (.setRate host chip, rest) := by
  rw [decode, if_pos (opField_wordZ _)]
  simp [decodeRate, decodeZ, Except.map]

end Sys2Proof

namespace Sys2Proof.Claims

/-- Settles O2, format by format. -/
theorem decodeOfEncode : Obligations.DecodeOfEncode := by
  intro i rest hwf
  cases i with
  | rd a => exact decode_wordRd a rest
  | reset | rsmp => exact decode_one (by simp) (by simp [decodeOne, decodeZ]) rest
  | setModelA | setModelB => exact decode_one (by simp) rfl rest
  | setRate host chip => exact decode_setRate host chip rest
  | clk n | render n => exact decode_one (by simp) (by simp [decodeOne]) rest
  | monWave0 | monWave1 | monWave2 | monEnv0 | monEnv1 | monEnv2 | monFc | monVol => exact decode_wordMon rfl rest
  | setExtDither d => exact decode_wordExt (decodeExt_dither d) rest
  | setExtGain v g => exact decode_wordExt (decodeExt_gain (by simpa [Instr.wf] using hwf) g) rest
  | setExtBoost b =>
    exact decode_wordExt (decodeExt_boost (by simpa [Instr.wf, BitVec.ule] using hwf)) rest
  | setExtAm m => exact decode_wordExt (decodeExt_am m) rest
  | setExtRmodeNearest | setExtRmodeLinear | setExtRmodeBandlimited => exact decode_wordExt rfl rest
  | illegalOp0 r | illegalOpB r | illegalOpC r | illegalOpD r | illegalOpE r | illegalOpF r =>
    exact decode_one (by simp) (by simp [decodeOne]) rest
  | _ => exact decode_wordWr _ _ rest

end Sys2Proof.Claims
end

section
/-! SUPPORT. Encoding what was decoded: a word of each format rebuilt from its fields, and the verdict of the decoder on
the words of one command: a legal command, an opcode that is no command, or the clause of 30_encoding.md R148 they
fail. -/

namespace Sys2Proof

/-! ## Words rebuilt from their fields -/

/-- Two neighbouring fields, put together. -/
theorem append_fields (w : Word) (lo m n : Nat) :
    w.extractLsb' (lo + n) m ++ w.extractLsb' lo n = w.extractLsb' lo (m + n) :=
  BitVec.extractLsb'_append_extractLsb'_eq_extractLsb' rfl

theorem wordC_of_fields {w : Word} {op : BitVec 4} (hop : opField w = op) : wordC op (lowField w) = w := by
  rw [wordC, ← hop, opField, lowField, append_fields w 0 4 28, BitVec.extractLsb'_eq_self]

theorem wordZ_of_fields {w : Word} {op : BitVec 4} (hop : opField w = op) (hz : lowField w = 0#28) :
    wordZ op = w := by
  have h := wordC_of_fields hop
  rwa [hz] at h

theorem wordWr_of_fields {w : Word} (hop : opField w = 0x1#4) (hz : w.extractLsb' 13 15 = 0#15) :
    wordWr (addrField w) (dataField w) = w := by
  rw [wordWr, ← hop, ← hz, opField, addrField, dataField, append_fields w 13 4 15, append_fields w 8 19 5,
    append_fields w 0 24 8, BitVec.extractLsb'_eq_self]

theorem wordRd_of_fields {w : Word} (hop : opField w = 0x2#4) (hz : w.extractLsb' 13 15 = 0#15)
    (hd : dataField w = 0#8) : wordRd (addrField w) = w := by
  rw [wordRd, ← hop, ← hz, ← hd, opField, addrField, dataField, append_fields w 13 4 15, append_fields w 8 19 5,
    append_fields w 0 24 8, BitVec.extractLsb'_eq_self]

theorem wordModel_of_fields {w : Word} (hop : opField w = 0x4#4) (hz : w.extractLsb' 1 27 = 0#27) :
    wordModel (w.extractLsb' 0 1) = w := by
  rw [wordModel, ← hop, ← hz, opField, append_fields w 1 4 27, append_fields w 0 31 1, BitVec.extractLsb'_eq_self]

theorem wordMon_of_fields {w : Word} (hop : opField w = 0x9#4) (hz : w.extractLsb' 4 24 = 0#24) :
    wordMon (selField w) = w := by
  rw [wordMon, ← hop, ← hz, opField, selField, append_fields w 4 4 24, append_fields w 0 28 4,
    BitVec.extractLsb'_eq_self]

theorem wordExt_of_fields {w : Word} (hop : opField w = 0xA#4) (hz : extReservedZero w = true) :
    wordExt (subField w) (voiceField w) (valField w) = w := by
  obtain ⟨hhigh, hlow⟩ := extReservedZero_iff.mp hz
  rw [wordExt, ← hop, ← hhigh, ← hlow, opField, subField, voiceField, valField, append_fields w 24 4 4,
    append_fields w 18 8 6, append_fields w 16 14 2, append_fields w 9 16 7, append_fields w 0 23 9,
    BitVec.extractLsb'_eq_self]

/-- A VAL whose high bits are 0 is its low bits, extended. -/
theorem valField_of_high_zero {w : Word} (m n : Nat) (hn : m + n = 9) (hz : w.extractLsb' n m = 0#m) :
    valField w = (w.extractLsb' 0 n).zeroExtend 9 := by
  have h := congrArg BitVec.toNat (append_fields w 0 m n)
  rw [Nat.zero_add, hz, BitVec.toNat_append, BitVec.toNat_ofNat, Nat.zero_mod, Nat.zero_shiftLeft, Nat.zero_or, hn] at h
  apply BitVec.eq_of_toNat_eq
  rw [BitVec.zeroExtend_eq_setWidth, BitVec.toNat_setWidth_of_le (by omega), h, valField]

/-- The WR commands are encoded by their address and data. -/
theorem encode_wrCommand (a : Addr) (d : Byte) :
    (wrCommand a d).wf = true ∧ encode (wrCommand a d) = [wordWr a d] := by
  obtain ⟨n, hn⟩ := a
  interval_cases n <;> exact ⟨rfl, rfl⟩

end Sys2Proof

namespace Sys2Proof.Claims

open Sys2Proof.Machine

/-! ## The clauses of R148 in the decoder's fields -/

theorem field_eq_toNat_iff {w : Word} {lo len : Nat} (x : BitVec len) :
    field w lo len = x.toNat ↔ w.extractLsb' lo len = x := by
  rw [field_eq_toNat, BitVec.toNat_inj]

theorem field_eq_zero_iff {w : Word} {lo len : Nat} : field w lo len = 0 ↔ w.extractLsb' lo len = 0#len :=
  field_eq_toNat_iff 0#len

theorem field_op {w : Word} {op : BitVec 4} (hop : opField w = op) : field w 28 4 = op.toNat :=
  (field_eq_toNat_iff op).mpr hop

section

variable {w : Word}

theorem illegalWord_wr (hop : opField w = 0x1#4) : IllegalWord w ↔ w.extractLsb' 13 15 ≠ 0#15 := by
  simp [IllegalWord, field_op hop, field_eq_zero_iff]

theorem illegalWord_rd (hop : opField w = 0x2#4) :
    IllegalWord w ↔ ¬(w.extractLsb' 13 15 = 0#15 ∧ dataField w = 0#8) := by
  simp [IllegalWord, field_op hop, field_eq_zero_iff, dataField, imp_iff_not_or]

theorem illegalWord_z (hop : opField w = 0x3#4 ∨ opField w = 0x5#4 ∨ opField w = 0x7#4) :
    IllegalWord w ↔ lowField w ≠ 0#28 := by
  rcases hop with hop | hop | hop <;> simp [IllegalWord, field_op hop, field_eq_zero_iff, lowField]

theorem illegalWord_model (hop : opField w = 0x4#4) : IllegalWord w ↔ w.extractLsb' 1 27 ≠ 0#27 := by
  simp [IllegalWord, field_op hop, field_eq_zero_iff]

theorem not_illegalWord_count (hop : opField w = 0x6#4 ∨ opField w = 0x8#4) : ¬IllegalWord w := by
  rcases hop with hop | hop <;> simp [IllegalWord, field_op hop]

theorem badSelector_iff (hop : opField w = 0x9#4) (hz : w.extractLsb' 4 24 = 0#24) :
    BadSelector w ↔ (selField w).toNat = 3 ∨ (selField w).toNat = 7 ∨ 10 ≤ (selField w).toNat := by
  simp [BadSelector, field_op hop, field_eq_zero_iff, hz, field_eq_toNat w 0 4, selField]

theorem not_badSelector (hop : opField w ≠ 0x9#4) : ¬BadSelector w := fun h =>
  hop ((field_eq_toNat_iff 0x9#4).mp h.1)

theorem illegalWord_mon (hop : opField w = 0x9#4) :
    IllegalWord w ↔ w.extractLsb' 4 24 ≠ 0#24 ∨ BadSelector w := by
  simp [IllegalWord, BadSelector, field_op hop, field_eq_zero_iff]
  tauto

theorem illegalWord_ext_reserved (hop : opField w = 0xA#4) (hz : ¬extReservedZero w = true) : IllegalWord w := by
  rw [extReservedZero_iff, not_and_or, ← field_eq_zero_iff, ← field_eq_zero_iff] at hz
  simp [IllegalWord, field_op hop, hz]

theorem illegalWord_ext (hop : opField w = 0xA#4) (hz : extReservedZero w = true) :
    IllegalWord w ↔ 5 ≤ (subField w).toNat ∨
      ((subField w).toNat = 0 ∧ ¬(voiceField w = 0#2 ∧ w.extractLsb' 1 8 = 0#8)) ∨
      ((subField w).toNat = 1 ∧ voiceField w = 3#2) ∨
      ((subField w).toNat = 2 ∧ ¬(voiceField w = 0#2 ∧ (valField w).toNat ≤ 256)) ∨
      ((subField w).toNat = 3 ∧ ¬(voiceField w = 0#2 ∧ w.extractLsb' 3 6 = 0#6)) ∨
      ((subField w).toNat = 4 ∧
        ¬(voiceField w = 0#2 ∧ w.extractLsb' 2 7 = 0#7 ∧ (w.extractLsb' 0 2).toNat ≠ 3)) := by
  obtain ⟨hhigh, hlow⟩ := extReservedZero_iff.mp hz
  have hthree : field w 16 2 = 3 ↔ voiceField w = 3#2 := field_eq_toNat_iff 3#2
  simp only [IllegalWord, field_op hop, field_eq_zero_iff, hhigh, hlow, hthree, field_eq_toNat w 24 4,
    field_eq_toNat w 0 9, field_eq_toNat w 0 2, subField, valField, voiceField, not_and_or, not_le, not_not, ne_eq]
  simp

end

/-! ## The verdict on one command -/

/-- What the decoder may answer on one command, the word w and its operand words: a command these words encode, legal or
with an opcode that is no command, or the clause of R148 that w fails. -/
inductive Verdict (w : Word) (operands : List Word) : Except Reject Instr → Prop
  | command {i : Instr} : i.wf = true → encode i = w :: operands → ¬IllegalWord w → Verdict w operands (.ok i)
  | illegalOpcode {i : Instr} : i.wf = true → encode i = w :: operands →
      field w 28 4 = 0x0 ∨ 0xB ≤ field w 28 4 → Verdict w operands (.ok i)
  | badSelector : BadSelector w → Verdict w operands (.error (.badSelector w))
  | reservedBits : IllegalWord w → ¬BadSelector w → Verdict w operands (.error (.reservedBits w))
  | badExtension : IllegalWord w → ¬BadSelector w → Verdict w operands (.error (.badExtension w))

section

variable {w : Word}

/-- A format with one check: a command where it holds, a rejection where it does not. -/
theorem verdict_ite {operands : List Word} {c : Prop} [Decidable c] {i : Instr} {e : Reject}
    (hlegal : IllegalWord w ↔ ¬c) (hok : c → i.wf = true ∧ encode i = w :: operands)
    (herr : IllegalWord w → Verdict w operands (.error e)) :
    Verdict w operands (if c then .ok i else .error e) := by
  split_ifs with hc
  · exact .command (hok hc).1 (hok hc).2 fun h => hlegal.mp h hc
  · exact herr (hlegal.mpr hc)

theorem verdict_wr (hop : opField w = 0x1#4) : Verdict w [] (decodeWr w) :=
  verdict_ite (illegalWord_wr hop)
    (fun hz => by
      have h := encode_wrCommand (addrField w) (dataField w)
      rwa [wordWr_of_fields hop hz] at h)
    (.reservedBits · (not_badSelector (by simp [hop])))

theorem verdict_rd (hop : opField w = 0x2#4) : Verdict w [] (decodeRd w) :=
  verdict_ite (illegalWord_rd hop) (fun hz => ⟨rfl, congrArg (· :: []) (wordRd_of_fields hop hz.1 hz.2)⟩)
    (.reservedBits · (not_badSelector (by simp [hop])))

theorem verdict_z {i : Instr} {op : BitVec 4} {operands : List Word} (hop : opField w = op)
    (hz : op = 0x3#4 ∨ op = 0x5#4 ∨ op = 0x7#4) (hwf : i.wf = true) (henc : encode i = wordZ op :: operands) :
    Verdict w operands (decodeZ i w) :=
  verdict_ite (illegalWord_z (hop ▸ hz)) (fun hlow => ⟨hwf, wordZ_of_fields hop hlow ▸ henc⟩)
    (.reservedBits · (not_badSelector (by rcases hz with rfl | rfl | rfl <;> simp [hop])))

theorem wf_encode_setModel (b : Bool) :
    (if b then Instr.setModelB else .setModelA).wf = true ∧
      encode (if b then .setModelB else .setModelA) = [wordModel (BitVec.ofBool b)] := by
  cases b <;> exact ⟨rfl, rfl⟩

theorem verdict_model (hop : opField w = 0x4#4) : Verdict w [] (decodeModel w) :=
  have hbit : w.extractLsb' 0 1 = BitVec.ofBool (w.getLsbD 0) :=
    field_eq fun i hi => by simp [Nat.lt_one_iff.mp hi]
  verdict_ite (illegalWord_model hop)
    (fun hz => by
      have h := wf_encode_setModel (w.getLsbD 0)
      rwa [← hbit, wordModel_of_fields hop hz] at h)
    (.reservedBits · (not_badSelector (by simp [hop])))

theorem verdict_count {i : Instr} {op : BitVec 4} (hop : opField w = op) (hc : op = 0x6#4 ∨ op = 0x8#4)
    (hwf : i.wf = true) (henc : encode i = [wordC op (lowField w)]) : Verdict w [] (.ok i) := by
  rw [wordC_of_fields hop] at henc
  exact .command hwf henc (not_illegalWord_count (hop ▸ hc))

theorem verdict_illegalOpcode {i : Instr} {op : BitVec 4} (hop : opField w = op)
    (hc : op.toNat = 0x0 ∨ 0xB ≤ op.toNat) (hwf : i.wf = true) (henc : encode i = [wordC op (lowField w)]) :
    Verdict w [] (.ok i) := by
  rw [wordC_of_fields hop] at henc
  exact .illegalOpcode hwf henc (field_op hop ▸ hc)

/-! ### MON -/

section

variable (hop : opField w = 0x9#4)
include hop

/-- A MON word with a good selector is the word of the command that selector names (R146). -/
theorem verdict_selector (hz : w.extractLsb' 4 24 = 0#24) {i : Instr} {sel : BitVec 4} (hwf : i.wf = true)
    (henc : encode i = [wordMon sel]) (hsel : (selField w).toNat = sel.toNat)
    (hgood : ¬(sel.toNat = 3 ∨ sel.toNat = 7 ∨ 10 ≤ sel.toNat)) : Verdict w [] (.ok i) := by
  rw [← BitVec.eq_of_toNat_eq hsel, wordMon_of_fields hop hz] at henc
  refine .command hwf henc fun h => ?_
  rw [illegalWord_mon hop, badSelector_iff hop hz, hsel] at h
  exact h.elim (· hz) hgood

theorem verdict_mon : Verdict w [] (decodeMon w) := by
  unfold decodeMon
  split_ifs with hz
  · split
    case h_9 =>
      refine .badSelector ((badSelector_iff hop hz).mpr ?_)
      simp only [imp_false] at *
      omega
    all_goals
      rename_i hsel
      exact verdict_selector hop hz rfl rfl hsel (by decide)
  · exact .reservedBits ((illegalWord_mon hop).mpr (.inl hz)) fun h => hz (field_eq_zero_iff.mp h.2.1)

end

/-! ### SETEXT -/

theorem verdict_badExtension (hop : opField w = 0xA#4) (h : IllegalWord w) :
    Verdict w [] (.error (.badExtension w)) :=
  .badExtension h (not_badSelector (by simp [hop]))

section

variable (hop : opField w = 0xA#4) (hz : extReservedZero w = true)
include hop hz

/-- The SETEXT command whose sub-operation, voice and value a word holds is encoded by that word. -/
theorem encode_ext {i : Instr} {sub : BitVec 4} {v : BitVec 2} {val : BitVec 9} (henc : encode i = [wordExt sub v val])
    (hsub : (subField w).toNat = sub.toNat) (hv : voiceField w = v) (hval : valField w = val) : encode i = [w] := by
  rwa [← BitVec.eq_of_toNat_eq hsub, ← hv, ← hval, wordExt_of_fields hop hz] at henc

theorem verdict_dither (hsub : (subField w).toNat = 0) : Verdict w [] (decodeDither w) :=
  verdict_ite (by simp [illegalWord_ext hop hz, hsub])
    (fun hc => ⟨rfl, encode_ext hop hz rfl hsub hc.1 (valField_of_high_zero 8 1 rfl hc.2)⟩)
    (verdict_badExtension hop)

theorem verdict_gain (hsub : (subField w).toNat = 1) : Verdict w [] (decodeGain w) := by
  have h := verdict_ite (c := voiceField w ≠ 3#2) (i := .setExtGain (voiceField w) (valField w))
    (by simp [illegalWord_ext hop hz, hsub])
    (fun hc => ⟨by simpa [Instr.wf] using hc, encode_ext hop hz rfl hsub rfl rfl⟩) (verdict_badExtension hop)
  rwa [ite_not] at h

theorem verdict_boost (hsub : (subField w).toNat = 2) : Verdict w [] (decodeBoost w) :=
  verdict_ite (by simp [illegalWord_ext hop hz, hsub])
    (fun hc => ⟨by simpa [Instr.wf, BitVec.ule] using hc.2, encode_ext hop hz rfl hsub hc.1 rfl⟩)
    (verdict_badExtension hop)

theorem verdict_am (hsub : (subField w).toNat = 3) : Verdict w [] (decodeAm w) :=
  verdict_ite (by simp [illegalWord_ext hop hz, hsub])
    (fun hc => ⟨rfl, encode_ext hop hz rfl hsub hc.1 (valField_of_high_zero 6 3 rfl hc.2)⟩)
    (verdict_badExtension hop)

/-- A RMODE word names its mode in the two low bits of VAL (R147). -/
theorem encode_rmode (hsub : (subField w).toNat = 4) (hv : voiceField w = 0#2) (hhigh : w.extractLsb' 2 7 = 0#7)
    {i : Instr} (m : BitVec 2) (henc : encode i = [wordExt 4#4 0#2 (m.zeroExtend 9)])
    (hm : (w.extractLsb' 0 2).toNat = m.toNat) : encode i = [w] :=
  encode_ext hop hz henc hsub hv (BitVec.eq_of_toNat_eq hm ▸ valField_of_high_zero 7 2 rfl hhigh)

theorem verdict_rmode (hsub : (subField w).toNat = 4) : Verdict w [] (decodeRmode w) := by
  have hill : IllegalWord w ↔
      ¬((voiceField w = 0#2 ∧ w.extractLsb' 2 7 = 0#7) ∧ (w.extractLsb' 0 2).toNat ≠ 3) := by
    rw [illegalWord_ext hop hz, and_assoc]
    simp only [hsub]
    simp
  unfold decodeRmode
  split_ifs with hc
  · have hlegal (hm : (w.extractLsb' 0 2).toNat ≠ 3) : ¬IllegalWord w := fun h => hill.mp h ⟨hc, hm⟩
    have henc {i : Instr} := encode_rmode hop hz hsub hc.1 hc.2 (i := i)
    split
    case h_1 hm => exact .command rfl (henc 0#2 rfl hm) (hlegal (by omega))
    case h_2 hm => exact .command rfl (henc 1#2 rfl hm) (hlegal (by omega))
    case h_3 hm => exact .command rfl (henc 2#2 rfl hm) (hlegal (by omega))
    case h_4 =>
      refine verdict_badExtension hop (hill.mpr fun h => h.2 ?_)
      simp only [imp_false] at *
      omega
  · exact verdict_badExtension hop (hill.mpr fun h => hc h.1)

end

theorem verdict_ext (hop : opField w = 0xA#4) : Verdict w [] (decodeExt w) := by
  unfold decodeExt
  split_ifs with hz
  · split
    case h_1 hsub => exact verdict_dither hop hz hsub
    case h_2 hsub => exact verdict_gain hop hz hsub
    case h_3 hsub => exact verdict_boost hop hz hsub
    case h_4 hsub => exact verdict_am hop hz hsub
    case h_5 hsub => exact verdict_rmode hop hz hsub
    case h_6 =>
      refine verdict_badExtension hop ((illegalWord_ext hop hz).mpr (.inl ?_))
      simp only [imp_false] at *
      omega
  · exact .reservedBits (illegalWord_ext_reserved hop hz) (not_badSelector (by simp [hop]))

/-! ### The decoder -/

/-- The verdict on a word of any opcode but SETRATE's. -/
theorem verdict_one (hop : opField w ≠ 0x5#4) : Verdict w [] (decodeOne w) := by
  have hop' : ∀ {n : Nat}, (opField w).toNat = n → opField w = BitVec.ofNat 4 n := fun h => by
    rw [← h, BitVec.ofNat_toNat, BitVec.setWidth_eq]
  unfold decodeOne
  split
  case h_1 h => exact verdict_illegalOpcode (hop' h) (by decide) rfl rfl
  case h_2 h => exact verdict_wr (hop' h)
  case h_3 h => exact verdict_rd (hop' h)
  case h_4 h => exact verdict_z (hop' h) (by decide) rfl rfl
  case h_5 h => exact verdict_model (hop' h)
  case h_6 h => exact absurd (hop' h) hop
  case h_7 h => exact verdict_count (hop' h) (by decide) rfl rfl
  case h_8 h => exact verdict_z (hop' h) (by decide) rfl rfl
  case h_9 h => exact verdict_count (hop' h) (by decide) rfl rfl
  case h_10 h => exact verdict_mon (hop' h)
  case h_11 h => exact verdict_ext (hop' h)
  case h_16 =>
    have h : (opField w).toNat = 0xF := by
      simp only [imp_false] at *
      omega
    exact verdict_illegalOpcode (hop' h) (by decide) rfl rfl
  all_goals
    rename_i h
    exact verdict_illegalOpcode (hop' h) (by decide) rfl rfl

/-- The verdict on a SETRATE word with its operand words. -/
theorem verdict_rate (hop : opField w = 0x5#4) (host chip : Word) :
    Verdict w [host, chip] (decodeRate w host chip) :=
  verdict_z hop (by decide) rfl rfl

end

end Sys2Proof.Claims
end

section
/-! SUPPORT. One command at the port: a SETRATE that waits, a whole command with the words after it, and the words a
whole command decodes from (30_encoding.md R144). -/

namespace Sys2Proof

/-- A SETRATE waits for its operand words. -/
theorem decode_of_waiting {w : Word} {tail : List Word} (hop : opField w = 0x5#4) (hlen : tail.length < 2) :
    decode (w :: tail) = .error .awaitingOperands := by
  match tail, hlen with
  | [], _ | [_], _ => simp [decode, hop]

end Sys2Proof

namespace Sys2Proof.Claims

open Sys2Proof.Machine

/-- The opcode of SETRATE, in the words of the statements and in the decoder's. -/
theorem field_op_rate_iff {w : Word} : field w 28 4 = 0x5 ↔ opField w = 0x5#4 := field_eq_toNat_iff 0x5#4

/-- A whole command has a verdict, and the words after it stay. -/
theorem decode_whole {w : Word} {operands : List Word} (hlen : operands.length = if field w 28 4 = 0x5 then 2 else 0) :
    ∃ d, Verdict w operands d ∧ ∀ rest, decode (w :: (operands ++ rest)) = d.map (·, rest) := by
  by_cases hop : opField w = 0x5#4
  · rw [if_pos (field_op_rate_iff.mpr hop)] at hlen
    obtain ⟨host, chip, rfl⟩ := List.length_eq_two.mp hlen
    exact ⟨decodeRate w host chip, verdict_rate hop host chip, fun rest => by simp [decode, hop]⟩
  · rw [if_neg (hop ∘ field_op_rate_iff.mp)] at hlen
    obtain rfl := List.length_eq_zero_iff.mp hlen
    exact ⟨decodeOne w, verdict_one hop, fun rest => by simp [decode, hop]⟩

/-- A command that does not wait stands whole at the port, before the words it leaves. -/
theorem whole_of_not_waiting {w : Word} {tail : List Word} (h : ¬(field w 28 4 = 0x5 ∧ tail.length < 2)) :
    ∃ operands rest, tail = operands ++ rest ∧ operands.length = if field w 28 4 = 0x5 then 2 else 0 := by
  refine ⟨tail.take (if field w 28 4 = 0x5 then 2 else 0), _, (List.take_append_drop _ _).symm, ?_⟩
  split_ifs with hop
  · exact List.length_take_of_le (Nat.le_of_not_lt fun hlt => h ⟨hop, hlt⟩)
  · rfl

/-- What decodes is well-formed, and its encoding is the words it decoded from. -/
theorem verdict_ok {w : Word} {operands : List Word} {i : Instr} (h : Verdict w operands (.ok i)) :
    i.wf = true ∧ encode i = w :: operands := by
  cases h with
  | command hwf henc _ | illegalOpcode hwf henc _ => exact ⟨hwf, henc⟩

/-- Settles O3: a command that decodes is whole, so it has a verdict. -/
theorem encodeOfDecode : Obligations.EncodeOfDecode := by
  intro ws rest i h
  match ws with
  | [] => cases h
  | w :: tail =>
    by_cases hwait : field w 28 4 = 0x5 ∧ tail.length < 2
    · rw [decode_of_waiting (field_op_rate_iff.mp hwait.1) hwait.2] at h
      cases h
    · obtain ⟨operands, rest', rfl, hlen⟩ := whole_of_not_waiting hwait
      obtain ⟨d, hd, hdecode⟩ := decode_whole hlen
      rw [hdecode] at h
      cases d with
      | error e => cases h
      | ok j =>
        obtain ⟨rfl, rfl⟩ : j = i ∧ rest' = rest := by simpa [Except.map] using h
        obtain ⟨hwf, henc⟩ := verdict_ok hd
        exact ⟨hwf, by rw [henc, List.cons_append]⟩

end Sys2Proof.Claims
end

section
/-! SUPPORT. What every command answers: a next state, with the port as it was and one response, of status 1 only where
its word is illegal (30_encoding.md R148; 60_exceptions.md R501, R502, R505). -/

namespace Sys2Proof.Claims

open Sys2Proof.Machine

/-- One response and the port as it was; where `legal`, the response is not IllegalCommand. -/
def Answers (legal : Prop) (s : State) (o : Host.Outcome State Fault Refusal) : Prop :=
  ∃ t r, o = .next t ∧ t.commands = s.commands ∧ t.results = s.results ++ [r] ∧ (legal → r.status ≠ 1)

section

variable {legal : Prop} {s : State}

theorem answers_finish (c : Chip) : Answers legal s (.next (finish c s)) :=
  ⟨_, .ok, rfl, rfl, rfl, fun _ => by decide⟩

theorem answers_answer (r : Word) : Answers legal s (.next (answer r s)) :=
  ⟨_, .okResult r, rfl, rfl, rfl, fun _ => by simp [Response.status]⟩

theorem answers_raise {f : Response} (hf : legal → f.status ≠ 1) : Answers legal s (.next (raise f s)) :=
  ⟨_, f, rfl, rfl, rfl, hf⟩

theorem answers_raiseIllegal {w : Word} (hw : ¬legal) : Answers legal s (.next (raiseIllegal w s)) :=
  answers_raise fun h => absurd h hw

theorem answers_renderGate (c : Chip) (xs : List Sample) : Answers legal s (renderGate s (finishEmitting c xs s)) := by
  rcases renderGate_cases s (finishEmitting c xs s) with ⟨-, h⟩ | ⟨-, h⟩
  · exact ⟨_, .ok, h, rfl, rfl, fun _ => by decide⟩
  · exact h ▸ answers_raise fun _ => by simp [Response.status]

theorem answers_setRate (host chip : Word) : Answers legal s (execSetRate host chip s) := by
  unfold execSetRate
  split_ifs
  · exact answers_raise fun _ => by simp [Response.status]
  · exact answers_finish _

end

/-- An opcode that is no command is an illegal word (R148 (a)). -/
theorem illegalWord_wordC {op : BitVec 4} (h : op.toNat = 0x0 ∨ 0xB ≤ op.toNat) (n : BitVec 28) :
    IllegalWord (wordC op n) := by
  rw [← field_wordC_op op n] at h
  exact h.imp_right .inl

theorem illegalWord_of_gain (val : BitVec 9) : IllegalWord (wordExt 1#4 3#2 val) :=
  (illegalWord_ext (opField_wordExt _ _ _) (reserved_wordExt _ _ _)).mpr (by simp)

theorem illegalWord_of_boost {val : BitVec 9} (h : ¬val.toNat ≤ 256) : IllegalWord (wordExt 2#4 0#2 val) :=
  (illegalWord_ext (opField_wordExt _ _ _) (reserved_wordExt _ _ _)).mpr (by simpa using h)

theorem answers_setExtGain (v : BitVec 2) (val : BitVec 9) (s : State) :
    Answers (¬IllegalWord (wordExt 1#4 v val)) s (execSetExtGain v val s) := by
  unfold execSetExtGain
  split
  case h_1 => exact answers_finish _
  case h_2 hv =>
    obtain rfl : v = 3#2 := by revert v; decide
    exact answers_raiseIllegal (not_not_intro (illegalWord_of_gain val))

theorem answers_setExtBoost (val : BitVec 9) (s : State) :
    Answers (¬IllegalWord (wordExt 2#4 0#2 val)) s (execSetExtBoost val s) := by
  unfold execSetExtBoost
  split_ifs with hb
  · exact answers_finish _
  · exact answers_raiseIllegal (not_not_intro (illegalWord_of_boost hb))

/-- What every command answers. -/
theorem exec_answers (i : Instr) (s : State) : Answers (¬IllegalWord (wordOf i)) s (exec i s) := by
  cases i with
  | rd | monWave0 | monWave1 | monWave2 | monEnv0 | monEnv1 | monEnv2 | monFc | monVol => exact answers_answer _
  | setRate host chip => exact answers_setRate host chip
  | rsmp | render => exact answers_renderGate _ _
  | setExtGain v val => exact answers_setExtGain v val s
  | setExtBoost val => exact answers_setExtBoost val s
  | illegalOp0 r | illegalOpB r | illegalOpC r | illegalOpD r | illegalOpE r | illegalOpF r =>
    exact answers_raiseIllegal (not_not_intro (illegalWord_wordC (by decide) r))
  | _ => exact answers_finish _

/-- A command whose opcode is no command raises IllegalCommand with its word (R501). -/
theorem exec_of_illegal_opcode {i : Instr} (h : opcode i = 0x0 ∨ 0xB ≤ opcode i) (s : State) :
    exec i s = .next (raiseIllegal (wordOf i) s) := by
  cases i with
  | illegalOp0 | illegalOpB | illegalOpC | illegalOpD | illegalOpE | illegalOpF => rfl
  | _ => simp [opcode, wordOf, encode] at h

end Sys2Proof.Claims
end

section
/-! SUPPORT. A step on a whole command (30_encoding.md R144, R148). -/

namespace Sys2Proof.Machine

/-- A SETRATE without its operand words holds the block. -/
theorem step_of_waiting {s : State} (h : decode s.commands = .error .awaitingOperands) : step s = .next s := by
  rw [step, fetchAndRun, h]

theorem step_of_reservedBits {s : State} {w : Word} (h : decode s.commands = .error (.reservedBits w)) :
    step s = .next (rejectWord w s) := by
  rw [step, fetchAndRun, h]

theorem step_of_badExtension {s : State} {w : Word} (h : decode s.commands = .error (.badExtension w)) :
    step s = .next (rejectWord w s) := by
  rw [step, fetchAndRun, h]

theorem step_of_badSelector {s : State} {w : Word} (h : decode s.commands = .error (.badSelector w)) :
    step s = .next (rejectSelector w s) := by
  rw [step, fetchAndRun, h]

end Sys2Proof.Machine

namespace Sys2Proof.Claims

open Sys2Proof.Machine

/-- A bad selector is an illegal word (R148 (c)). -/
theorem illegalWord_of_badSelector {w : Word} (h : BadSelector w) : IllegalWord w :=
  (illegalWord_mon (field_eq_toNat_iff 0x9#4 |>.mp h.1)).mpr (.inr h)

/-- The length of a command, in the words of the statements (R144). -/
theorem commandLength_eq (w : Word) : commandLength w = if field w 28 4 = 0x5 then 3 else 1 := by
  simp only [commandLength, field_op_rate_iff]

/-- Taking a command of its length leaves the words after it. -/
theorem drop_whole {w : Word} {operands : List Word} (hlen : operands.length = if field w 28 4 = 0x5 then 2 else 0)
    (rest : List Word) : (w :: (operands ++ rest)).drop (commandLength w) = rest := by
  have hk : commandLength w = operands.length + 1 := by
    rw [commandLength_eq, hlen]
    split_ifs <;> rfl
  rw [hk, List.drop_succ_cons, List.drop_left]

/-- Everything a step does with a whole command: run a legal one, or take its words and raise IllegalCommand with the
word, with the selector too where that is what is wrong. -/
theorem step_whole {s : State} {w : Word} {operands rest : List Word} (hs : s.commands = w :: (operands ++ rest))
    (hlen : operands.length = if field w 28 4 = 0x5 then 2 else 0) :
    (¬IllegalWord w ∧ ∃ i, wordOf i = w ∧ step s = exec i { s with commands := rest }) ∨
      (IllegalWord w ∧ ¬BadSelector w ∧
        step s = .next { s with commands := rest, results := s.results ++ [.illegalCommand w] }) ∨
      (BadSelector w ∧
        step s = .next { s with commands := rest, results := s.results ++ [.illegalSelector w (selField w)] }) := by
  have hrest : s.commands.drop (commandLength w) = rest := by rw [hs, drop_whole hlen]
  have hreject : rejectWord w s = { s with commands := rest, results := s.results ++ [.illegalCommand w] } := by
    rw [← hrest]; rfl
  obtain ⟨d, hd, hdecode⟩ := decode_whole hlen
  replace hdecode := hdecode rest
  rw [← hs] at hdecode
  cases hd with
  | @command i hwf henc hlegal =>
    exact .inl ⟨hlegal, i, by rw [wordOf, henc, List.headD_cons], step_of_decode_ok hdecode⟩
  | @illegalOpcode i hwf henc hop =>
    have hw : wordOf i = w := by rw [wordOf, henc, List.headD_cons]
    refine .inr (.inl ⟨hop.imp_right .inl, fun hb => ?_, ?_⟩)
    · have := hb.1
      omega
    · rw [step_of_decode_ok hdecode, exec_of_illegal_opcode (by rwa [opcode, hw]), hw]
      rfl
  | badSelector hbad => exact .inr (.inr ⟨hbad, by rw [step_of_badSelector hdecode, ← hrest]; rfl⟩)
  | reservedBits hill hbad => exact .inr (.inl ⟨hill, hbad, by rw [step_of_reservedBits hdecode, hreject]⟩)
  | badExtension hill hbad => exact .inr (.inl ⟨hill, hbad, by rw [step_of_badExtension hdecode, hreject]⟩)

/-- Settles O4: the three outcomes of a whole command exclude each other, and a legal one answers another status. -/
theorem illegalWordRaisesIllegalCommand : Obligations.IllegalWordRaisesIllegalCommand := by
  intro s w operands rest hs hlen
  rcases step_whole hs hlen with ⟨hlegal, i, hw, hstep⟩ | ⟨hill, hbad, hstep⟩ | ⟨hbad, hstep⟩
  · obtain ⟨t, r, hexec, -, hresults, hstatus⟩ := exec_answers i { s with commands := rest }
    exact ⟨fun h => absurd h hlegal, fun h => absurd (illegalWord_of_badSelector h) hlegal,
      fun h => ⟨t, r, hstep.trans hexec, hresults, hstatus (hw ▸ h)⟩⟩
  · exact ⟨fun _ _ => hstep, fun h => absurd h hbad, fun h => absurd hill h⟩
  · exact ⟨fun _ h => absurd hbad h, fun _ => hstep, fun h => absurd (illegalWord_of_badSelector hbad) h⟩

/-- Settles O6: a command that does not wait is whole, and each outcome of a whole command leaves the words after it. -/
theorem portHoldsAndTakesWholeCommands : Obligations.PortHoldsAndTakesWholeCommands := by
  intro s w tail hs
  refine ⟨fun ⟨hop, hlen⟩ => step_of_waiting ?_, fun hwait => ?_⟩
  · rw [hs, decode_of_waiting (field_op_rate_iff.mp hop) hlen]
  · obtain ⟨operands, rest, rfl, hlen⟩ := whole_of_not_waiting hwait
    rw [← commandLength_eq, drop_whole hlen]
    rcases step_whole hs hlen with ⟨-, i, -, hstep⟩ | ⟨-, -, hstep⟩ | ⟨-, hstep⟩
    · obtain ⟨t, -, hexec, hcommands, -⟩ := exec_answers i { s with commands := rest }
      exact ⟨t, hstep.trans hexec, hcommands⟩
    · exact ⟨_, hstep, rfl⟩
    · exact ⟨_, hstep, rfl⟩

/-- Settles O1: the decoder evaluated on each word. -/
theorem decodesWordsOfTheSpec : Obligations.DecodesWordsOfTheSpec :=
  ⟨rfl, rfl, rfl, rfl, rfl, rfl, rfl, rfl, rfl, rfl, rfl, rfl, rfl, rfl, rfl, rfl, rfl⟩

end Sys2Proof.Claims
end

section
/-! SUPPORT. The clock converter: the count and the residual of one sample, of many, and SETRATE
(40_clock_converter.md R200 to R205). -/

namespace Sys2Proof.Machine

/-- The count and the residual of one sample lose nothing: together they are the old residual and the chip rate
(40_clock_converter.md R201). -/
theorem sampleCycles_add_resid {k : ClockAcc} (h : k.sRate ≠ 0#32) :
    k.sRate.toNat * sampleCycles k + (clockAdvance k).resid.toNat = k.resid.toNat + k.cRate.toNat := by
  obtain ⟨hresid, -⟩ := clockAdvance_below h
  rw [hresid, sampleCycles, residAfter, Nat.div_add_mod]

/-- One count is the quotient of the rates, and one more when the residual makes up a whole cycle with the remainder
of the rates (40_clock_converter.md R203). -/
theorem sampleCycles_of_below {k : ClockAcc} (h : k.resid.toNat < k.sRate.toNat) :
    sampleCycles k = k.cRate.toNat / k.sRate.toNat +
      if k.sRate.toNat ≤ k.resid.toNat + k.cRate.toNat % k.sRate.toNat then 1 else 0 := by
  rw [sampleCycles, Nat.add_div (Nat.zero_lt_of_lt h), Nat.div_eq_of_lt h, Nat.mod_eq_of_lt h, Nat.zero_add]

/-- One count fits 32 bits (40_clock_converter.md R203). -/
theorem sampleCycles_lt {k : ClockAcc} (h : k.resid.toNat < k.sRate.toNat) : sampleCycles k < 2 ^ 32 := by
  have hc := k.cRate.isLt
  exact Nat.div_lt_of_lt_mul (by omega)

/-- SETRATE with a rate of 0 (45_chip_commands.md R422). -/
theorem execSetRate_of_zero {host chip : Word} (h : host = 0#32 ∨ chip = 0#32) (s : State) :
    execSetRate host chip s = .next (raise (.configError host chip) s) :=
  if_pos h

/-- SETRATE with two legal rates (45_chip_commands.md R422). -/
theorem execSetRate_of_ne_zero {host chip : Word} (hhost : host ≠ 0#32) (hchip : chip ≠ 0#32) (s : State) :
    execSetRate host chip s = .next (finish { s.chip with clock := clockConfigured host chip } s) :=
  if_neg (not_or.mpr ⟨hhost, hchip⟩)

end Sys2Proof.Machine

namespace Sys2Proof.Claims

open Sys2Proof.Machine

theorem clockAfter_succ (n : Nat) (k : ClockAcc) : clockAfter (n + 1) k = clockAfter n (clockAdvance k) := rfl

/-- Over n samples nothing is lost either: the cycles given out and the residual are the first residual and n times the
chip rate (40_clock_converter.md R202). -/
theorem totalCycles_add_resid (n : Nat) {k : ClockAcc} (h : k.sRate ≠ 0#32) :
    k.sRate.toNat * totalCycles n k + (clockAfter n k).resid.toNat = k.resid.toNat + n * k.cRate.toNat := by
  induction n generalizing k with
  | zero => simp [totalCycles, clockAfter]
  | succ n ih =>
    have hone := sampleCycles_add_resid h
    have hrest := ih (k := clockAdvance k) h
    rw [clockAdvance_sRate, clockAdvance_cRate] at hrest
    rw [totalCycles, clockAfter_succ, Nat.mul_add, Nat.succ_mul]
    omega

/-- The samples keep the residual below the host rate (10_state.md R63). -/
theorem clockAfter_below (n : Nat) {k : ClockAcc} (h : k.sRate ≠ 0#32) (hk : k.resid.toNat < k.sRate.toNat) :
    (clockAfter n k).resid.toNat < k.sRate.toNat := by
  induction n generalizing k with
  | zero => exact hk
  | succ n ih =>
    obtain ⟨hresid, hlt⟩ := clockAdvance_below h
    exact ih (k := clockAdvance k) h (hresid ▸ hlt)

/-- Settles O26: the residual fits since it is below S_RATE; the count is one more only where the residual and the
remainder of the rates reach S_RATE, so that remainder is not 0. -/
theorem sampleCycleCount : Obligations.SampleCycleCount := by
  intro k h
  obtain ⟨hresid, hlt⟩ := clockAdvance_below h
  refine ⟨rfl, hresid, hresid ▸ hlt, rfl, rfl, fun hk => ⟨?_, Nat.le_pred_of_lt (sampleCycles_lt hk)⟩⟩
  rw [sampleCycles_of_below hk]
  split_ifs with hcarry
  · exact .inr ⟨rfl, fun hzero => by omega⟩
  · exact .inl rfl

/-- Settles O27: what n samples give out and what they leave is n times C_RATE, and what they leave is below S_RATE, so
they are its quotient and remainder. -/
theorem longRunClockExact : Obligations.LongRunClockExact := by
  intro k n h hzero
  have hpos : 0 < k.sRate.toNat := Nat.zero_lt_of_lt (clockAdvance_below h).2
  have hresid : k.resid.toNat = 0 := by rw [hzero]; rfl
  have hlt := clockAfter_below n h (hresid ▸ hpos)
  have hsum := totalCycles_add_resid n h
  rw [hresid, Nat.zero_add, Nat.add_comm] at hsum
  obtain ⟨hdiv, hmod⟩ := (Nat.div_mod_unique hpos).mpr ⟨hsum, hlt⟩
  exact ⟨hdiv.symm, hmod.symm⟩

/-- Settles O25: the two branches of SETRATE. -/
theorem setRateConfigures : Obligations.SetRateConfigures :=
  fun _ _ s => ⟨fun ⟨hhost, hchip⟩ => execSetRate_of_ne_zero hhost hchip s, fun h => execSetRate_of_zero h s⟩

end Sys2Proof.Claims
end

section
/-! SUPPORT. The invariant of Safety.lean over every step: what a cycle, a filter clock, a rendered sample, a register
write, RESET and the configuration commands keep of it. -/

namespace Sys2Proof.Machine

/-! ## What each part of the invariant reads -/

/-- The filter's part reads the registers, the active model, BOOST and the two coefficients. -/
theorem filterInv_congr {c c' : Chip} (h : FilterInv c) (hregs : c'.regs = c.regs)
    (hmodel : c'.modelActive = c.modelActive) (hboost : c'.ext.boost = c.ext.boost)
    (hw0 : c'.filt.w0 = c.filt.w0) (hdivq : c'.filt.divq = c.filt.divq) : FilterInv c' :=
  { pw_hi_masked := by rw [hregs]; exact h.pw_hi_masked
    fc_lo_masked := by rw [hregs]; exact h.fc_lo_masked
    w0_current := by rw [hregs, hmodel, hw0]; exact h.w0_current
    divq_current := by rw [hregs, hboost, hdivq]; exact h.divq_current
    boost_legal := by rw [hboost]; exact h.boost_legal }

/-- The clock's part reads the clock accumulator and DSTATE. -/
theorem clockInv_congr {c c' : Chip} (h : ClockInv c) (hclock : c'.clock = c.clock) (hdstate : c'.dstate = c.dstate) :
    ClockInv c' :=
  { s_rate_nonzero := by rw [hclock]; exact h.s_rate_nonzero
    c_rate_nonzero := by rw [hclock]; exact h.c_rate_nonzero
    resid_below := by rw [hclock]; exact h.resid_below
    dstate_nonzero := by rw [hdstate]; exact h.dstate_nonzero }

/-- Only the clock's part reads the clock accumulator: any legal one may stand in its place (10_state.md R63). -/
theorem chipInv_with_clock {c : Chip} (h : ChipInv c) {k : ClockAcc} (hs : k.sRate ≠ 0#32) (hc : k.cRate ≠ 0#32)
    (hr : k.resid.toNat < k.sRate.toNat) : ChipInv { c with clock := k } :=
  { osc := h.osc
    env := h.env
    filter := filterInv_congr h.filter rfl rfl rfl rfl rfl
    clock := ⟨hs, hc, hr, h.clock.dstate_nonzero⟩ }

/-- RESID = 0 is below every rate that is not 0. -/
theorem resid_zero_below {rate : Word} (h : rate ≠ 0#32) : (0#32).toNat < rate.toNat :=
  Nat.pos_of_ne_zero fun hz => h (BitVec.eq_of_toNat_eq hz)

/-! ## Clocking -/

/-- One chip cycle keeps the invariant: it steps the oscillators and the envelopes. -/
theorem chipCycle_chipInv {c : Chip} (h : ChipInv c) : ChipInv (chipCycle c) :=
  { osc := fun v => by
      rw [chipCycle_regs, chipCycle_osc, oscCycle, get_ofFn]
      exact oscStep_inv (h.osc v) _
    env := fun v => by
      rw [chipCycle_regs, chipCycle_env, envCycle, get_ofFn]
      exact envStep_inv (h.env v)
    filter := filterInv_congr h.filter rfl rfl rfl rfl rfl
    clock := clockInv_congr h.clock rfl rfl }

/-- The filter's half of a clock keeps it: the coefficients stay and the dither generator is not stuck at 0. -/
theorem filterHalf_chipInv {c : Chip} (h : ChipInv c) (n : Nat) : ChipInv (filterHalf n c) := by
  obtain ⟨hw0, hdivq⟩ := filterClock_coefficients n (voiceSamples c) extIn c
  obtain ⟨hs, hc, hr, hd⟩ := h.clock
  exact
    { osc := h.osc
      env := h.env
      filter := filterInv_congr h.filter rfl rfl rfl hw0 hdivq
      clock := ⟨hs, hc, hr, ditherState_ne_zero hd c.ext.ditherEn⟩ }

/-- A clock of n cycles keeps it (45_chip_commands.md R440). -/
theorem chipClock_chipInv {c : Chip} (h : ChipInv c) (n : Nat) : ChipInv (chipClock n c) :=
  filterHalf_chipInv (repeatTimes_keeps (P := ChipInv) (fun _ => chipCycle_chipInv) n h) n

/-- A rendered sample keeps it: the residual stays below the host rate (40_clock_converter.md R201). -/
theorem renderOne_chipInv {c : Chip} (h : ChipInv c) : ChipInv (renderOne c) := by
  obtain ⟨hresid, hlt⟩ := clockAdvance_below h.clock.s_rate_nonzero
  have hadvanced : ChipInv { c with clock := clockAdvance c.clock } :=
    chipInv_with_clock h h.clock.s_rate_nonzero h.clock.c_rate_nonzero (hresid.trans_lt hlt)
  exact chipClock_chipInv hadvanced _

/-- So do n of them (45_chip_commands.md R442). -/
theorem renderChip_chipInv {c : Chip} (h : ChipInv c) (n : Nat) : ChipInv (renderChip n c) :=
  repeatTimes_keeps (P := ChipInv) (fun _ => renderOne_chipInv) n h

/-! ## Register writes and RESET -/

/-- Bits a register's mask leaves out stay 0 over every mapped write (45_chip_commands.md R401). -/
theorem regWrite_unused_zero (r q : RegName) (d : Byte) {c : Chip} {unused : Byte} (hmask : regMask q &&& unused = 0#8)
    (h : getReg c.regs q &&& unused = 0#8) : getReg (regWrite r d c).regs q &&& unused = 0#8 := by
  rw [getReg_regWrite]
  split
  case isTrue hq => rw [← hq, BitVec.and_assoc, hmask, BitVec.and_zero]
  case isFalse => exact h

/-- A mapped write keeps the invariant: the masked bits, and the coefficients computed anew (43_filter.md R326). -/
theorem regWrite_chipInv {c : Chip} (h : ChipInv c) (r : RegName) (d : Byte) : ChipInv (regWrite r d c) := by
  obtain ⟨-, hext, hdstate, hclock, -⟩ := regWrite_frame r d c
  obtain ⟨hw0, hdivq⟩ := regWrite_coefficients r d c
  exact
    { osc := regWrite_oscInv h.osc r d
      env := regWrite_envInv h.env r d
      filter :=
        { pw_hi_masked := fun v =>
            regWrite_unused_zero r (.pwHi v) d (by decide : (0x0F#8 &&& 0xF0#8) = 0#8) (h.filter.pw_hi_masked v)
          fc_lo_masked := regWrite_unused_zero r .fcLo d (by decide) h.filter.fc_lo_masked
          w0_current := by rw [regWrite_modelActive, hw0]
          divq_current := by rw [hext, hdivq]
          boost_legal := by rw [hext]; exact h.filter.boost_legal }
      clock := clockInv_congr h.clock hclock hdstate }

/-- RESET keeps it: the reset values, under the configuration the block has (70_reset_and_hazards.md R601). -/
theorem resetBody_chipInv {c : Chip} (h : ChipInv c) : ChipInv c.resetBody :=
  { osc := fun v => by cases v <;> exact oscInv_reset
    env := fun v => by cases v <;> exact envInv_reset
    filter :=
      { pw_hi_masked := fun v => by cases v <;> exact BitVec.zero_and
        fc_lo_masked := BitVec.zero_and
        w0_current := congrArg (w0Table c.modelPending) (by decide : 0#11 = fcOf RegFile.reset)
        divq_current := congrArg (divqBoosted c.ext.boost) (by decide : 0#4 = resOf RegFile.reset)
        boost_legal := h.filter.boost_legal }
    clock :=
      { s_rate_nonzero := h.clock.s_rate_nonzero
        c_rate_nonzero := h.clock.c_rate_nonzero
        resid_below := resid_zero_below h.clock.s_rate_nonzero
        dstate_nonzero := (by decide : ditherSeed ≠ 0#32) } }

/-! ## The configuration commands -/

/-- SETMODEL keeps it: nothing in it reads the pending model (45_chip_commands.md R421). -/
theorem setModel_chipInv {c : Chip} (h : ChipInv c) (m : ChipModel) : ChipInv (setModel m c) :=
  { osc := h.osc
    env := h.env
    filter := filterInv_congr h.filter rfl rfl rfl rfl rfl
    clock := clockInv_congr h.clock rfl rfl }

/-- An extension setting that keeps BOOST keeps it (45_chip_commands.md R455). -/
theorem setExt_chipInv {c : Chip} (h : ChipInv c) {e : Ext} (he : e.boost = c.ext.boost) : ChipInv (setExt e c) :=
  { osc := h.osc
    env := h.env
    filter := filterInv_congr h.filter rfl rfl he rfl rfl
    clock := clockInv_congr h.clock rfl rfl }

/-- A legal BOOST with DIVQ computed anew keeps it (45_chip_commands.md R452). -/
theorem recomputeDivq_setExt_chipInv {c : Chip} (h : ChipInv c) {e : Ext} (he : e.boost.toNat ≤ 256) :
    ChipInv (recomputeDivq (setExt e c)) :=
  { osc := h.osc
    env := h.env
    filter :=
      { pw_hi_masked := h.filter.pw_hi_masked
        fc_lo_masked := h.filter.fc_lo_masked
        w0_current := h.filter.w0_current
        divq_current := rfl
        boost_legal := he }
    clock := clockInv_congr h.clock rfl rfl }

end Sys2Proof.Machine

namespace Sys2Proof.Claims

open Sys2Proof.Machine

/-- Every command keeps the invariant: one lemma for each operation a command can be. -/
theorem exec_chipInv {i : Instr} {s t : State} (h : ChipInv s.chip) (hexec : exec i s = .next t) : ChipInv t.chip := by
  rcases exec_shape hexec with ⟨-, r, d, -, rfl⟩ | ⟨-, -, rfl⟩ | ⟨-, _, rfl⟩ | ⟨-, rfl⟩ | ⟨-, m, rfl⟩ |
    ⟨-, host, chip, hhost, hchip, rfl⟩ | ⟨-, n, rfl⟩ | ⟨-, n, rfl⟩ | ⟨-, e, rfl, he⟩ |
    ⟨-, b, hb, rfl⟩ | ⟨-, _, -, -, rfl⟩
  · exact regWrite_chipInv h r d
  · exact h
  · exact h
  · exact resetBody_chipInv h
  · exact setModel_chipInv h m
  · exact chipInv_with_clock h hhost hchip (resid_zero_below hhost)
  · exact chipClock_chipInv h n
  · exact renderChip_chipInv h n
  · exact setExt_chipInv h he
  · exact recomputeDivq_setExt_chipInv h hb
  · exact h

/-- Settles O60: a step runs a command, holds, or rejects words that are no command, which leaves the block. -/
theorem stepKeepsInvariant : Obligations.StepKeepsInvariant := by
  intro s t h hstep
  rcases step_cases hstep with ⟨i, rest, -, hexec⟩ | ⟨-, rfl⟩ | ⟨w, -, rfl⟩ | ⟨w, -, rfl⟩
  · exact exec_chipInv (s := { s with commands := rest }) h hexec
  · exact h
  · exact h
  · exact h

end Sys2Proof.Claims
end

section
/-! SUPPORT. The waveform output in numbers: the fields of a control byte and of the accumulator as quotients, and WAVE
by its selector (41_oscillator.md R240 to R246). -/

namespace Sys2Proof.Machine

/-- The top bits of a register are the quotient by the power of two below them. -/
theorem toNat_topBits {w : Nat} (x : BitVec w) {lo len : Nat} (h : w = lo + len) :
    (x.extractLsb' lo len).toNat = x.toNat / 2 ^ lo := by
  have hx : x.toNat < 2 ^ lo * 2 ^ len := by rw [← Nat.pow_add, ← h]; exact x.isLt
  rw [BitVec.extractLsb'_toNat, Nat.shiftRight_eq_div_pow, Nat.mod_eq_of_lt (Nat.div_lt_of_lt_mul hx)]

/-- Two fields side by side, as a number. -/
theorem toNat_append_eq {m n : Nat} (x : BitVec m) (y : BitVec n) : (x ++ y).toNat = 2 ^ n * x.toNat + y.toNat := by
  rw [BitVec.toNat_append, ← Nat.shiftLeft_add_eq_or_of_lt y.isLt, Nat.shiftLeft_eq, Nat.mul_comm]

/-- SEL (10_state.md R52). -/
theorem selOf_toNat (ctrl : Byte) : (selOf ctrl).toNat = ctrl.toNat / 16 := toNat_topBits ctrl rfl

/-- PW[v] (10_state.md R52, R104). -/
theorem pwOf_toNat (r : VoiceRegs) : (pwOf r).toNat = 256 * (r.pwHi.toNat % 16) + r.pwLo.toNat := by
  rw [pwOf, toNat_append_eq, BitVec.extractLsb'_toNat, Nat.shiftRight_zero]
  rfl

/-- TRI[v] (41_oscillator.md R241). -/
theorem triangle_toNat (ring sourceTop : Bool) (acc : BitVec 24) :
    (triangle ring sourceTop acc).toNat =
      if (acc.getLsbD 23 ^^ (ring && sourceTop)) = true then 0xFFF - acc.toNat / 2 ^ 11 % 2 ^ 12
      else acc.toNat / 2 ^ 11 % 2 ^ 12 := by
  have hfold : (acc.extractLsb' 11 12).toNat = acc.toNat / 2 ^ 11 % 2 ^ 12 := by
    rw [BitVec.extractLsb'_toNat, Nat.shiftRight_eq_div_pow]
  rw [triangle, apply_ite BitVec.toNat, BitVec.toNat_not, hfold]

/-- SAW[v] (41_oscillator.md R242). -/
theorem sawtooth_toNat (acc : BitVec 24) : (sawtooth acc).toNat = acc.toNat / 2 ^ 12 := toNat_topBits acc rfl

/-- PUL[v] (41_oscillator.md R243). -/
theorem pulse_toNat (test : Bool) (pw : BitVec 12) (acc : BitVec 24) :
    (pulse test pw acc).toNat = if test = true ∨ pw.toNat ≤ acc.toNat / 2 ^ 12 then 0xFFF else 0 := by
  rw [pulse, toNat_topBits acc rfl, apply_ite BitVec.toNat]
  rfl

/-- The noise output (41_oscillator.md R244). -/
theorem noiseOf_toNat (l : BitVec 23) : (noiseOf noiseMapKind l).toNat = l.toNat / 2 ^ 11 := toNat_topBits l rfl

end Sys2Proof.Machine

namespace Sys2Proof.Claims

open Sys2Proof.Machine

/-- The source of a voice in the Chip is the voice before (41_oscillator.md R226). -/
theorem syncSource_eq_voiceBefore (v : VoiceId) : syncSource v = voiceBefore v := by cases v <;> rfl

/-- WAVE of one oscillator, selector by selector (41_oscillator.md R240): the four pure waveforms by their values, the
other twelve selectors by the entry of the table or 0. -/
theorem oscWave_toNat (m : ChipModel) (r : VoiceRegs) (sourceTop : Bool) (o : Osc) :
    (oscWave m r sourceTop o).toNat = waveNat m r sourceTop o := by
  have hlt : r.control.toNat / 16 < 16 := by omega
  simp only [oscWave, combinedSel, waveNat, selOf_toNat]
  match r.control.toNat / 16, hlt with
  | 1, _ => exact triangle_toNat _ _ _
  | 2, _ => exact sawtooth_toNat _
  | 4, _ => rw [← pwOf_toNat]; exact pulse_toNat _ _ _
  | 8, _ => exact noiseOf_toNat _
  | 3, _ | 5, _ | 6, _ | 7, _ => rfl
  | 0, _ | 9, _ | 10, _ | 11, _ | 12, _ | 13, _ | 14, _ | 15, _ => rfl
  | n + 16, h => exact absurd h (by omega)

/-- Settles O18: the sync source is the voice before, and WAVE is by its selector. -/
theorem waveformSelection : Obligations.WaveformSelection := by
  intro c v
  rw [chipWave, oscWave_toNat, syncSource_eq_voiceBefore]

end Sys2Proof.Claims
end

section
/-! SUPPORT. The oscillator cycle in numbers: the sum with its wrap, the noise clock and the shift of the noise register
(41_oscillator.md R221 to R228). -/

namespace Sys2Proof.Machine

/-- F[v] (10_state.md R52, R104). -/
theorem freqOf_toNat (r : VoiceRegs) : (freqOf r).toNat = 256 * r.freqHi.toNat + r.freqLo.toNat :=
  toNat_append_eq r.freqHi r.freqLo

/-- A shift of the noise register, as a number: doubled, with the exclusive or of bits 22 and 17 below, modulo 2^23
(41_oscillator.md R224). -/
theorem noiseShift_toNat (l : BitVec 23) :
    (noiseShift l).toNat = (2 * l.toNat + if l.getLsbD 22 = l.getLsbD 17 then 0 else 1) % 2 ^ 23 := by
  have hbit : (l.getLsbD 22 ^^ l.getLsbD 17).toNat = if l.getLsbD 22 = l.getLsbD 17 then 0 else 1 := by
    cases l.getLsbD 22 <;> cases l.getLsbD 17 <;> rfl
  rw [noiseShift, toNat_append_eq, BitVec.extractLsb'_toNat, BitVec.toNat_ofBool, hbit, Nat.shiftRight_zero]
  split <;> omega

/-- EV[v] is bit 24 of the sum while TEST is clear (41_oscillator.md R225, SYNC_EVENT = wrap). -/
theorem oscEvent_eq (r : VoiceRegs) (o : Osc) :
    oscEvent r o = (!testBit r.control && (oscSum (testBit r.control) o.acc (freqOf r)).getLsbD 24) := rfl

/-- The noise register is clocked by one condition alone (41_oscillator.md R224). -/
theorem oscStep_lfsr (r : VoiceRegs) (event : Bool) (o : Osc) :
    (oscStep r event o).lfsr =
      if noiseEdge (testBit r.control) o.acc (oscNext (testBit r.control) o.acc (freqOf r)) = true then
        noiseShift o.lfsr
      else o.lfsr := rfl

/-- The accumulator is reset by one condition alone, and otherwise advances (41_oscillator.md R222, R227). -/
theorem oscStep_acc (r : VoiceRegs) (event : Bool) (o : Osc) :
    (oscStep r event o).acc =
      if (syncBit r.control && event) = true then 0#24 else oscNext (testBit r.control) o.acc (freqOf r) := rfl

/-- A command of one cycle moves each oscillator by one step, on the event of its source at the start of the cycle
(41_oscillator.md R228). -/
theorem chipClock_one_osc (c : Chip) (v : VoiceId) :
    (chipClock 1 c).osc.get v =
      oscStep (c.regs.voice.get v) (oscEvent (c.regs.voice.get (syncSource v)) (c.osc.get (syncSource v)))
        (c.osc.get v) := by
  obtain ⟨hosc, -⟩ := chipClock_voices 1 c
  rw [hosc, repeatTimes_succ, repeatTimes_zero, chipCycle_osc, oscCycle, get_ofFn]

end Sys2Proof.Machine

namespace Sys2Proof.Claims

open Sys2Proof.Machine

section

variable (r : VoiceRegs) (o : Osc)

/-- SUM[v] is the exact sum: two addends below 2^24 fit its 25 bits (41_oscillator.md R221). -/
theorem oscSum_toNat : (oscSum (testBit r.control) o.acc (freqOf r)).toNat = oscSumNat r o := by
  have hacc := o.acc.isLt
  have hfreq := (freqOf r).isLt
  rw [oscSum, oscSumNat, apply_ite BitVec.toNat, BitVec.toNat_add, BitVec.toNat_setWidth, BitVec.toNat_setWidth,
    ← freqOf_toNat, Nat.mod_eq_of_lt (by omega : o.acc.toNat < 2 ^ 25),
    Nat.mod_eq_of_lt (by omega : (freqOf r).toNat < 2 ^ 25),
    Nat.mod_eq_of_lt (by omega : o.acc.toNat + (freqOf r).toNat < 2 ^ 25)]
  rfl

/-- NEXT[v] is the sum modulo 2^24 (41_oscillator.md R221). -/
theorem oscNext_toNat : (oscNext (testBit r.control) o.acc (freqOf r)).toNat = oscSumNat r o % 2 ^ 24 := by
  rw [oscNext, BitVec.toNat_setWidth, oscSum_toNat]

/-- EV[v] is the wrap: bit 24 of a sum below 2^25 says that it reaches 2^24 (41_oscillator.md R225). -/
theorem oscEvent_iff : oscEvent r o = true ↔ syncWrap r o := by
  have hlt : oscSumNat r o < 2 ^ 25 := oscSum_toNat r o ▸ BitVec.isLt _
  have hbit : (oscSum (testBit r.control) o.acc (freqOf r)).getLsbD 24 = decide (2 ^ 24 ≤ oscSumNat r o) := by
    rw [← BitVec.testBit_toNat, oscSum_toNat, Nat.testBit_eq_decide_div_mod_eq, decide_eq_decide]
    omega
  rw [oscEvent_eq, hbit, Bool.and_eq_true, Bool.not_eq_true', decide_eq_true_iff]
  rfl

/-- The noise clock: TEST clear and bit 19 rising (41_oscillator.md R224). -/
theorem noiseEdge_iff :
    noiseEdge (testBit r.control) o.acc (oscNext (testBit r.control) o.acc (freqOf r)) = true ↔
      r.control.getLsbD 3 = false ∧ o.acc.getLsbD 19 = false ∧ (oscSumNat r o).testBit 19 = true := by
  have hbit : (oscNext (testBit r.control) o.acc (freqOf r)).getLsbD 19 = (oscSumNat r o).testBit 19 := by
    rw [← BitVec.testBit_toNat, oscNext_toNat, Nat.testBit_mod_two_pow]
    rfl
  rw [noiseEdge, hbit, Bool.and_eq_true, Bool.and_eq_true, Bool.not_eq_true', Bool.not_eq_true', and_assoc]
  rfl

end

/-- Settles O30: CLK 1 is one step of each oscillator, and each of the step's two conditions is the statement's. -/
theorem oscillatorCycle : Obligations.OscillatorCycle := by
  intro s
  refine ⟨finish (chipClock 1 s.chip) s, rfl, fun v => ?_⟩
  intro r o
  have hsync : (syncBit r.control && oscEvent (s.chip.regs.voice.get (syncSource v)) (s.chip.osc.get (syncSource v))) =
      true ↔ r.control.getLsbD 1 = true ∧
        syncWrap (s.chip.regs.voice.get (voiceBefore v)) (s.chip.osc.get (voiceBefore v)) := by
    rw [syncSource_eq_voiceBefore, Bool.and_eq_true, oscEvent_iff]
    rfl
  rw [finish_chip, chipClock_one_osc, oscStep_acc, oscStep_lfsr]
  refine ⟨fun h => if_pos (hsync.mpr h), fun h => ?_, fun h => ?_, fun h => if_neg (mt (noiseEdge_iff r o).mp h)⟩
  · rw [if_neg (mt hsync.mp h), oscNext_toNat]
  · rw [if_pos ((noiseEdge_iff r o).mpr h), noiseShift_toNat]

end Sys2Proof.Claims
end

section
/-! SUPPORT. The frequency conversion and its pseudo-instruction: FREQ_REG below and above saturation, and the two
writes of FREQ (41_oscillator.md R250, R251; 30_encoding.md R151). -/

namespace Sys2Proof.Machine

/-- FREQ_REG of a frequency that is not negative: the rounded value is not negative, and saturated it fits 16 bits
(41_oscillator.md R250). -/
theorem freqReg_toNat {f : Rat} (hf : 0 ≤ f) (cRate : Nat) :
    ((freqReg f cRate).toNat : Int) = min 0xFFFF ⌊f * 2 ^ 24 / (cRate : Rat) + 1 / 2⌋ := by
  have hfloor : 0 ≤ ⌊f * 2 ^ 24 / (cRate : Rat) + 1 / 2⌋ := Int.floor_nonneg.mpr (by positivity)
  have hnat : (freqReg f cRate).toNat = min 0xFFFF ⌊f * 2 ^ 24 / (cRate : Rat) + 1 / 2⌋.toNat :=
    Nat.mod_eq_of_lt (Nat.lt_succ_of_le (min_le_left _ _))
  rw [hnat, Nat.cast_min, Int.toNat_of_nonneg hfloor]
  rfl

/-- A WR to a register is that register's write (45_chip_commands.md R400). -/
theorem exec_wrTo (r : RegName) (d : Byte) (s : State) :
    exec (wrTo r d) s = .next (finish (regWrite r d s.chip) s) := by
  cases r with
  | freqLo v | freqHi v | pwLo v | pwHi v | control v | attackDecay v | sustainRelease v => cases v <;> rfl
  | fcLo | fcHi | resFilt | modeVol => rfl

/-- F[v] from the two bytes of its registers (10_state.md R52, R104). -/
theorem freqOf_eq_getReg (f : RegFile) (v : VoiceId) :
    freqOf (f.voice.get v) = getReg f (.freqHi v) ++ getReg f (.freqLo v) := rfl

/-- F[v] after its low and its high byte are written (45_chip_commands.md R403, R404): each is stored whole, and the
second write leaves the first. -/
theorem freqOf_regWrite (v : VoiceId) (lo hi : Byte) (c : Chip) :
    freqOf ((regWrite (.freqHi v) hi (regWrite (.freqLo v) lo c)).regs.voice.get v) = hi ++ lo := by
  have hwhole : ∀ d : Byte, d &&& 0xFF#8 = d := fun d => BitVec.and_allOnes
  rw [freqOf_eq_getReg, getReg_regWrite, if_pos rfl, getReg_regWrite, if_neg (by simp), getReg_regWrite, if_pos rfl]
  exact congrArg₂ _ (hwhole hi) (hwhole lo)

end Sys2Proof.Machine

namespace Sys2Proof.Claims

open Sys2Proof.Machine

/-- FREQ v, f leaves the block its two writes leave, the low byte first (30_encoding.md R151). -/
theorem execAll_pseudoFreq (v : VoiceId) (f : BitVec 16) (s : State) :
    ∃ t, execAll (pseudoFreq v f) s = .next t ∧
      t.chip = regWrite (.freqHi v) (f.extractLsb' 8 8) (regWrite (.freqLo v) (f.extractLsb' 0 8) s.chip) := by
  simp only [pseudoFreq, execAll, exec_wrTo]
  exact ⟨_, rfl, rfl⟩

/-- Settles O44: the conversion, its example of the spec evaluated, and the two bytes of f put together again. -/
theorem frequencyRegisterConversion : Obligations.FrequencyRegisterConversion := by
  refine ⟨fun f cRate hf _ => freqReg_toNat hf cRate, by decide +kernel, fun v f s => ?_⟩
  obtain ⟨t, hexec, hchip⟩ := execAll_pseudoFreq v f s
  refine ⟨t, hexec, ?_⟩
  rw [hchip, freqOf_regWrite, BitVec.extractLsb'_append_extractLsb'_eq_extractLsb' (Nat.zero_add 8).symm]
  exact BitVec.extractLsb'_eq_self

end Sys2Proof.Claims
end

section
/-! SUPPORT. The envelope cycle in numbers: the rate tick, and the level step with its phase change, its exponential
period and the zero latch (42_envelope.md R271 to R275). -/

namespace Sys2Proof.Machine

/-! ## The level step, phase by phase -/

/-- SUSTAIN_LEVEL(SUS[v]) fits 8 bits: at most 17 * 15 (42_envelope.md R270). -/
theorem sustainLevel_toNat (sr : Byte) : (sustainLevel (susOf sr)).toNat = 17 * (sr.toNat / 16) := by
  have hsus : (susOf sr).toNat = sr.toNat / 16 := toNat_topBits sr rfl
  have hlt : sr.toNat / 16 < 16 := Nat.div_lt_of_lt_mul sr.isLt
  rw [sustainLevel, BitVec.toNat_mul, BitVec.zeroExtend_eq_setWidth, BitVec.toNat_setWidth, hsus,
    Nat.mod_eq_of_lt (by omega : sr.toNat / 16 < 2 ^ 8)]
  exact Nat.mod_eq_of_lt (by change 17 * _ < 256; omega)

/-- A level one step lower, but not below `stop` nor below 0 (42_envelope.md R273). -/
def fallen (stop level : BitVec 8) : BitVec 8 := if level = stop ∨ level = 0#8 then level else level - 1#8

theorem fallen_self (stop : BitVec 8) : fallen stop stop = stop := if_pos (.inl rfl)

theorem fallen_toNat {stop level : BitVec 8} (h : level ≠ stop ∨ stop = 0#8) :
    (fallen stop level).toNat = level.toNat - 1 := by
  unfold fallen
  split_ifs with hstay
  · have hzero : level = 0#8 := by
      rcases hstay with rfl | hzero
      · exact h.resolve_left (fun hne => hne rfl)
      · exact hzero
    rw [hzero]; rfl
  · have hpos : level ≠ 0#8 := fun hzero => hstay (.inr hzero)
    bv_omega

/-- A level step in ATTACK: up to 255, where the decay begins. -/
theorem levelStep_of_attack {e : Env} (h : e.phase = .attack) (ad sr : Byte) :
    (levelStep ad sr e).level.toNat = min (e.level.toNat + 1) 255 ∧
      ((levelStep ad sr e).level = 255#8 →
        (levelStep ad sr e).phase = .decay ∧ (levelStep ad sr e).rp = ratePeriod (dcyOf ad)) ∧
      ((levelStep ad sr e).level ≠ 255#8 → (levelStep ad sr e).phase = .attack ∧ (levelStep ad sr e).rp = e.rp) := by
  have hrise : (if e.level = 255#8 then 255#8 else e.level + 1#8).toNat = min (e.level.toNat + 1) 255 := by
    split_ifs <;> bv_omega
  simp only [levelStep, h]
  rw [← hrise]
  generalize (if e.level = 255#8 then 255#8 else e.level + 1#8) = level
  by_cases htop : level = 255#8 <;> simp [htop]

/-- A level step in DECAY or SUSTAIN: down to the sustain level or to 0; the phase says whether the sustain level is
met. -/
theorem levelStep_of_decay {e : Env} (h : e.phase = .decay ∨ e.phase = .sustain) (ad sr : Byte) :
    levelStep ad sr e =
      { e with
        level := fallen (sustainLevel (susOf sr)) e.level
        phase := if fallen (sustainLevel (susOf sr)) e.level = sustainLevel (susOf sr) then .sustain else .decay } := by
  rcases h with h | h <;> simp only [levelStep, h] <;> rfl

/-- A level step in RELEASE: down to 0. -/
theorem levelStep_of_release {e : Env} (h : e.phase = .release) (ad sr : Byte) :
    levelStep ad sr e = { e with level := fallen 0#8 e.level } := by
  have hfall : fallen 0#8 e.level = if e.level = 0#8 then 0#8 else e.level - 1#8 := by
    unfold fallen
    split_ifs <;> simp_all
  simp only [levelStep, h, hfall]

/-- A level step leaves the counters, the exponential period and the zero latch: those are R272's and R274's. -/
theorem levelStep_frame (ad sr : Byte) (e : Env) :
    (levelStep ad sr e).rc = e.rc ∧ (levelStep ad sr e).ec = e.ec ∧ (levelStep ad sr e).ep = e.ep ∧
      (levelStep ad sr e).holdZero = e.holdZero := by
  unfold levelStep
  split
  · dsimp only
    split_ifs <;> exact ⟨rfl, rfl, rfl, rfl⟩
  all_goals exact ⟨rfl, rfl, rfl, rfl⟩

end Sys2Proof.Machine

namespace Sys2Proof.Claims

open Sys2Proof.Machine

/-- The exponential period a level sets, or the old one (42_envelope.md R274). -/
theorem expPeriodAt_getD (level : BitVec 8) (old : BitVec 5) : (expPeriodAt level).getD old = periodAfter level old := by
  simp only [expPeriodAt, periodAfter, ← BitVec.toNat_inj]
  split <;> simp_all

/-- The level step with its exponential period and zero latch is the level step of the statements. -/
theorem levelStep_expUpdate (r : VoiceRegs) {e : Env} (hrc : e.rc = 0#15) (hec : e.ec = 0#5)
    (hz : e.holdZero = false) : LevelStep r e (expUpdate (levelStep r.attackDecay r.sustainRelease e)) := by
  obtain ⟨krc, kec, kep, khold⟩ := levelStep_frame r.attackDecay r.sustainRelease e
  refine ⟨krc.trans hrc, kec.trans hec, ?_, ?_, fun hp => ?_, fun hp => ?_, fun hp => ?_⟩
  · rw [← kep, ← expPeriodAt_getD]
    rfl
  · simp [expUpdate, khold, hz]
  · exact levelStep_of_attack hp r.attackDecay r.sustainRelease
  · rw [levelStep_of_decay hp, ← sustainLevel_toNat]
    simp only [expUpdate, BitVec.toNat_inj, ne_eq, true_and]
    exact ⟨fun h => by rw [h, fallen_self], fun h => fallen_toNat (.inl h), fun h => if_pos h, fun h => if_neg h⟩
  · rw [levelStep_of_release hp]
    exact ⟨fallen_toNat (.inr rfl), hp, rfl⟩

/-! ## The cycle, case by case -/

section

variable (ad sr : Byte) {e : Env}

/-- The rate counter counted up fits 15 bits (42_envelope.md R271). -/
theorem rcNext_toNat (e : Env) : (rcNext e.rc).toNat = rateCountNat e := by
  unfold rcNext rateCountNat rateCounterMax
  split_ifs <;> bv_omega

theorem rcNext_eq_rp_iff : rcNext e.rc = e.rp ↔ isRateTick e := by
  rw [← BitVec.toNat_inj, rcNext_toNat, isRateTick]

/-- No rate tick: the counter counts, and nothing else changes (42_envelope.md R271). -/
theorem envStep_of_not_tick (h : ¬isRateTick e) :
    envStep ad sr e = { e with rc := BitVec.ofNat 15 (rateCountNat e) } := by
  rw [envStep, if_neg (mt rcNext_eq_rp_iff.mp h), ← rcNext_toNat, BitVec.ofNat_toNat, BitVec.setWidth_eq]

/-- A rate tick clears the rate counter (42_envelope.md R271). -/
theorem envStep_of_tick (h : isRateTick e) : envStep ad sr e = rateTick ad sr { e with rc := 0#15 } := by
  rw [envStep, if_pos (rcNext_eq_rp_iff.mpr h)]

/-- A rate tick that does not fill the exponential counter (42_envelope.md R272). -/
theorem rateTick_of_not_passes (h : ¬passesExponential e) : rateTick ad sr e = { e with ec := e.ec + 1#5 } := by
  rw [rateTick, if_pos (not_or.mp h)]

/-- A rate tick that fills or bypasses it (42_envelope.md R272). -/
theorem rateTick_of_passes (h : passesExponential e) : rateTick ad sr e = expTick ad sr e := by
  rw [rateTick, if_neg (fun hn => not_or.mpr hn h)]

/-- Held at zero, a rate tick moves the counters alone (42_envelope.md R272). -/
theorem rateTick_of_held (h : passesExponential e) (hz : e.holdZero = true) :
    rateTick ad sr e = { e with ec := 0#5 } := by
  rw [rateTick_of_passes ad sr h, expTick, if_pos hz]

end

/-- Not held, a rate tick that passes is a level step (42_envelope.md R272 to R274). -/
theorem rateTick_levelStep (r : VoiceRegs) {e : Env} (hrc : e.rc = 0#15) (h : passesExponential e)
    (hz : e.holdZero = false) : LevelStep r e (rateTick r.attackDecay r.sustainRelease e) := by
  rw [rateTick_of_passes _ _ h, expTick, if_neg (Bool.eq_false_iff.mp hz)]
  exact levelStep_expUpdate r (e := { e with ec := 0#5 }) hrc rfl hz

/-- A CLK steps each envelope once for each of its cycles (45_chip_commands.md R440). -/
theorem env_of_exec_clk {n : BitVec 28} {s t : State} (h : exec (.clk n) s = .next t) (v : VoiceId) :
    t.chip.env.get v =
      repeatTimes (envStep (s.chip.regs.voice.get v).attackDecay (s.chip.regs.voice.get v).sustainRelease) n.toNat
        (s.chip.env.get v) := by
  obtain rfl : finish (chipClock n.toNat s.chip) s = t := by injection h
  exact chipClock_env _ _ _

/-- Settles O31: CLK 1 is one step of each envelope, and the step's four cases are the statement's. -/
theorem envelopeCycle : Obligations.EnvelopeCycle := by
  refine fun s => ⟨_, rfl, fun v => ?_⟩
  intro e e'
  have hstep : e' = envStep (s.chip.regs.voice.get v).attackDecay (s.chip.regs.voice.get v).sustainRelease e :=
    env_of_exec_clk (n := 1#28) rfl v
  rw [hstep]
  refine ⟨fun h => envStep_of_not_tick _ _ h, fun h hpass => ?_, fun h hpass hz => ?_, fun h hpass hz => ?_⟩ <;>
    rw [envStep_of_tick _ _ h]
  · exact rateTick_of_not_passes _ _ hpass
  · exact rateTick_of_held _ _ hpass hz
  · exact rateTick_levelStep _ (e := { e with rc := 0#15 }) rfl hpass hz

end Sys2Proof.Claims
end

section
/-! SUPPORT. What an envelope keeps over any command: the direction of its level, the hold at zero, and the phase
between gate edges and level steps (42_envelope.md R286 to R288). -/

namespace Sys2Proof.Claims

open Sys2Proof.Machine

/-! ## One cycle -/

/-- A cycle moves only the counters, or is a level step. -/
theorem envStep_counters_or_levelStep (r : VoiceRegs) (e : Env) :
    (∃ rc ec, envStep r.attackDecay r.sustainRelease e = { e with rc := rc, ec := ec }) ∨
      (e.holdZero = false ∧ LevelStep r e (envStep r.attackDecay r.sustainRelease e)) := by
  rcases envStep_cases r.attackDecay r.sustainRelease e with ⟨-, h⟩ | ⟨-, -, -, h⟩ | ⟨-, -, -, h⟩ | ⟨-, -, hz, h⟩
  · exact .inl ⟨_, _, h⟩
  · exact .inl ⟨_, _, h⟩
  · exact .inl ⟨_, _, h⟩
  · rw [h]
    exact .inr ⟨hz, levelStep_expUpdate r (e := { e with rc := 0#15, ec := 0#5 }) rfl rfl hz⟩

/-- A level step changes the phase from ATTACK at 255, from DECAY at the sustain level, or from SUSTAIN away from it
(42_envelope.md R273, R288). -/
theorem phase_change_of_levelStep {r : VoiceRegs} {e e' : Env} (h : LevelStep r e e') (hne : e'.phase ≠ e.phase) :
    (e.phase = .attack ∧ e'.phase = .decay ∧ e'.level = 255#8) ∨
      (e.phase = .decay ∧ e'.phase = .sustain ∧ e'.level.toNat = 17 * (r.sustainRelease.toNat / 16)) ∨
      (e.phase = .sustain ∧ e'.phase = .decay ∧ e'.level.toNat ≠ 17 * (r.sustainRelease.toNat / 16)) := by
  obtain ⟨-, -, -, -, hattack, hfall, hrelease⟩ := h
  cases hp : e.phase with
  | attack =>
    obtain ⟨-, htop, hbelow⟩ := hattack hp
    by_cases hl : e'.level = 255#8
    · exact .inl ⟨rfl, (htop hl).1, hl⟩
    · exact absurd ((hbelow hl).1.trans hp.symm) hne
  | decay =>
    obtain ⟨-, -, -, hmet, hoff⟩ := hfall (.inl hp)
    by_cases hl : e'.level.toNat = 17 * (r.sustainRelease.toNat / 16)
    · exact .inr (.inl ⟨rfl, hmet hl, hl⟩)
    · exact absurd ((hoff hl).trans hp.symm) hne
  | sustain =>
    obtain ⟨-, -, -, hmet, hoff⟩ := hfall (.inr hp)
    by_cases hl : e'.level.toNat = 17 * (r.sustainRelease.toNat / 16)
    · exact absurd ((hmet hl).trans hp.symm) hne
    · exact .inr (.inr ⟨rfl, hoff hl, hl⟩)
  | release => exact absurd ((hrelease hp).2.1.trans hp.symm) hne

/-! ## The gate edges -/

/-- Everything a control write can do to an envelope (42_envelope.md R280). -/
theorem envWriteControl_cases (old new ad sr : Byte) (e : Env) :
    (old.getLsbD 0 = false ∧ new.getLsbD 0 = true ∧ envWriteControl old new ad sr e =
        { e with phase := .attack, rp := ratePeriod (atkOf ad), holdZero := false }) ∨
      (old.getLsbD 0 = true ∧ new.getLsbD 0 = false ∧ envWriteControl old new ad sr e =
        { e with phase := .release, rp := ratePeriod (relOf sr) }) ∨
      envWriteControl old new ad sr e = e := by
  unfold envWriteControl gateOnEdge gateOffEdge gateBit
  cases old.getLsbD 0 <;> cases new.getLsbD 0 <;> simp

/-! ## The direction of the level (R286) -/

/-- What any number of cycles does to the phase and the level: ATTACK is not entered, DECAY and SUSTAIN are left for each
other alone and RELEASE for none; the level rises in the first and falls in the others. -/
structure LevelDirection (e e' : Env) : Prop where
  attack : e'.phase = .attack → e.phase = .attack ∧ e.level.toNat ≤ e'.level.toNat
  falling : e.phase = .decay ∨ e.phase = .sustain →
    (e'.phase = .decay ∨ e'.phase = .sustain) ∧ e'.level.toNat ≤ e.level.toNat
  release : e.phase = .release → e'.phase = .release ∧ e'.level.toNat ≤ e.level.toNat

theorem LevelDirection.of_same {e e' : Env} (hphase : e'.phase = e.phase) (hlevel : e'.level = e.level) :
    LevelDirection e e' := by
  constructor <;> rw [hphase, hlevel] <;> exact fun h => ⟨h, le_rfl⟩

theorem LevelDirection.trans {e₁ e₂ e₃ : Env} (h : LevelDirection e₁ e₂) (h' : LevelDirection e₂ e₃) :
    LevelDirection e₁ e₃ where
  attack hp :=
    have ⟨hp', hle'⟩ := h'.attack hp
    have ⟨hp'', hle⟩ := h.attack hp'
    ⟨hp'', hle.trans hle'⟩
  falling hp :=
    have ⟨hp', hle⟩ := h.falling hp
    have ⟨hp'', hle'⟩ := h'.falling hp'
    ⟨hp'', hle'.trans hle⟩
  release hp :=
    have ⟨hp', hle⟩ := h.release hp
    have ⟨hp'', hle'⟩ := h'.release hp'
    ⟨hp'', hle'.trans hle⟩

theorem LevelDirection.of_levelStep {r : VoiceRegs} {e e' : Env} (h : LevelStep r e e') : LevelDirection e e' := by
  have hphase := fun hne => phase_change_of_levelStep h hne
  obtain ⟨-, -, -, -, hattack, hfall, hrelease⟩ := h
  refine ⟨fun hp => ?_, fun hp => ?_, fun hp => ?_⟩
  · have hp' : e.phase = .attack := by
      by_contra hne
      rcases hphase (fun heq => hne (heq ▸ hp)) with ⟨-, hx, -⟩ | ⟨-, hx, -⟩ | ⟨-, hx, -⟩ <;>
        cases hp.symm.trans hx
    obtain ⟨hlevel, -⟩ := hattack hp'
    have hlt := e.level.isLt
    exact ⟨hp', by omega⟩
  · obtain ⟨-, hstay, hdown, hmet, hoff⟩ := hfall hp
    refine ⟨?_, ?_⟩
    · by_cases hl : e'.level.toNat = 17 * (r.sustainRelease.toNat / 16)
      · exact .inr (hmet hl)
      · exact .inl (hoff hl)
    · by_cases hl : e.level.toNat = 17 * (r.sustainRelease.toNat / 16)
      · rw [hstay hl]
      · rw [hdown hl]; exact Nat.sub_le _ _
  · obtain ⟨hlevel, hp', -⟩ := hrelease hp
    exact ⟨hp', by omega⟩

theorem LevelDirection.of_envStep (r : VoiceRegs) (e : Env) :
    LevelDirection e (envStep r.attackDecay r.sustainRelease e) := by
  rcases envStep_counters_or_levelStep r e with ⟨rc, ec, h⟩ | ⟨-, h⟩
  · rw [h]
    exact .of_same rfl rfl
  · exact .of_levelStep h

theorem LevelDirection.of_cycles (r : VoiceRegs) (e : Env) (n : Nat) :
    LevelDirection e (repeatTimes (envStep r.attackDecay r.sustainRelease) n e) :=
  repeatTimes_keeps (P := LevelDirection e) (fun a ha => ha.trans (.of_envStep r a)) n (.of_same rfl rfl)

/-- What O32 says of one envelope before and after a command. -/
def LevelMonotone (e e' : Env) : Prop :=
  (e.phase = .attack → e'.phase = .attack → e.level.toNat ≤ e'.level.toNat) ∧
    ((e.phase = .decay ∨ e.phase = .sustain) → (e'.phase = .decay ∨ e'.phase = .sustain) →
      e'.level.toNat ≤ e.level.toNat) ∧
    (e.phase = .release → e'.phase = .release → e'.level.toNat ≤ e.level.toNat)

theorem levelMonotone_of_level_eq {e e' : Env} (h : e'.level = e.level) : LevelMonotone e e' := by
  rw [LevelMonotone, h]
  exact ⟨fun _ _ => le_rfl, fun _ _ => le_rfl, fun _ _ => le_rfl⟩

theorem LevelDirection.levelMonotone {e e' : Env} (h : LevelDirection e e') : LevelMonotone e e' :=
  ⟨fun _ hp => (h.attack hp).2, fun hp _ => (h.falling hp).2, fun hp _ => (h.release hp).2⟩

/-- Settles O32: only cycles and RESET move a level; RESET leaves it in RELEASE at 0. -/
theorem envelopeMonotone : Obligations.EnvelopeMonotone := by
  intro i s t v h
  refine env_of_exec (P := fun _ e _ e' => LevelMonotone e e') (fun _ _ => levelMonotone_of_level_eq rfl)
    (fun _ e => ?_) (fun _ _ _ _ _ => levelMonotone_of_level_eq rfl) (fun _ e d => ?_)
    (fun r e n => (LevelDirection.of_cycles r e n).levelMonotone) h v
  · exact ⟨fun _ hp => (nomatch hp), fun _ hp => (nomatch hp), fun _ _ => Nat.zero_le _⟩
  · obtain ⟨hlevel, -⟩ := envCounters_eq_iff.mp (envCounters_envWriteControl _ d _ _ e)
    exact levelMonotone_of_level_eq hlevel

/-! ## The hold at zero (R287) -/

/-- Cycles keep a level held at zero: they move its counters alone. -/
theorem held_of_cycles (r : VoiceRegs) {e : Env} (h : e.holdZero = true ∧ e.level = 0#8) (n : Nat) :
    (repeatTimes (envStep r.attackDecay r.sustainRelease) n e).holdZero = true ∧
      (repeatTimes (envStep r.attackDecay r.sustainRelease) n e).level = 0#8 := by
  refine repeatTimes_keeps (P := fun a : Env => a.holdZero = true ∧ a.level = 0#8) (fun a ha => ?_) n h
  rcases envStep_counters_or_levelStep r a with ⟨rc, ec, hstep⟩ | ⟨hfree, -⟩
  · rw [hstep]
    exact ha
  · rw [ha.1] at hfree
    exact nomatch hfree

/-- What O33 says of one voice before and after a command. -/
def HeldUntilGateOn (r : VoiceRegs) (e : Env) (r' : VoiceRegs) (e' : Env) : Prop :=
  e.holdZero = true → e.level = 0#8 →
    e'.level = 0#8 ∧ (e'.holdZero = false → r.control.getLsbD 0 = false ∧ r'.control.getLsbD 0 = true)

theorem heldUntilGateOn_of_held {r r' : VoiceRegs} {e e' : Env}
    (h : e.holdZero = true ∧ e.level = 0#8 → e'.holdZero = true ∧ e'.level = 0#8) : HeldUntilGateOn r e r' e' :=
  fun hz hl =>
    have ⟨hz', hl'⟩ := h ⟨hz, hl⟩
    ⟨hl', fun hfree => nomatch hz'.symm.trans hfree⟩

/-- Settles O33: every command but a gate-on edge leaves the level held. -/
theorem zeroHoldsUntilGateOn : Obligations.ZeroHoldsUntilGateOn := by
  intro i s t v h
  refine env_of_exec (P := HeldUntilGateOn) (fun _ _ => heldUntilGateOn_of_held id)
    (fun _ _ => heldUntilGateOn_of_held fun _ => ⟨rfl, rfl⟩) (fun _ _ _ _ _ => heldUntilGateOn_of_held id)
    (fun r e d => ?_) (fun r _ n => heldUntilGateOn_of_held fun hheld => held_of_cycles r hheld n) h v
  rcases envWriteControl_cases r.control d r.attackDecay r.sustainRelease e with ⟨hold, hnew, hw⟩ | ⟨-, -, hw⟩ | hw <;>
    rw [hw]
  · exact fun _ hl => ⟨hl, fun _ => ⟨hold, hnew⟩⟩
  · exact heldUntilGateOn_of_held id
  · exact heldUntilGateOn_of_held id

/-! ## The phase (R288) -/

/-- The rate updates leave the phase (42_envelope.md R281, R282). -/
theorem phase_of_rate_updates (d : Byte) (e : Env) :
    (envWriteAttackDecay d e).phase = e.phase ∧ (envWriteSustainRelease d e).phase = e.phase := by
  constructor
  · unfold envWriteAttackDecay; split <;> rfl
  · unfold envWriteSustainRelease; split <;> rfl

/-- A mapped write changes a voice's phase only at an edge of its gate bit (42_envelope.md R280 to R282). -/
theorem phase_change_of_regWrite {r : RegName} {d : Byte} {c : Chip} {v : VoiceId}
    (hne : ((regWrite r d c).env.get v).phase ≠ (c.env.get v).phase) :
    ((c.regs.voice.get v).control.getLsbD 0 = false ∧ ((regWrite r d c).regs.voice.get v).control.getLsbD 0 = true ∧
        ((regWrite r d c).env.get v).phase = .attack) ∨
      ((c.regs.voice.get v).control.getLsbD 0 = true ∧ ((regWrite r d c).regs.voice.get v).control.getLsbD 0 = false ∧
        ((regWrite r d c).env.get v).phase = .release) := by
  by_cases hc : r = .control v
  · subst hc
    have hnew : ((regWrite (.control v) d c).regs.voice.get v).control = d &&& 0xFF#8 := by
      rw [regWrite_regs]
      exact getReg_setReg_same _ (.control v) _
    rw [(regWrite_control v d c).2] at hne ⊢
    rw [hnew]
    rcases envWriteControl_cases (c.regs.voice.get v).control (d &&& 0xFF#8) (c.regs.voice.get v).attackDecay
      (c.regs.voice.get v).sustainRelease (c.env.get v) with ⟨ho, hn, hw⟩ | ⟨ho, hn, hw⟩ | hw <;> rw [hw] at hne ⊢
    · exact .inl ⟨ho, hn, rfl⟩
    · exact .inr ⟨ho, hn, rfl⟩
    · exact absurd rfl hne
  refine absurd ?_ hne
  by_cases ha : r = .attackDecay v
  · rw [ha, (regWrite_rates v d c).1, (phase_of_rate_updates _ _).1]
  by_cases hs : r = .sustainRelease v
  · rw [hs, (regWrite_rates v d c).2, (phase_of_rate_updates _ _).2]
  rw [regWrite_env_other hc ha hs]

/-- Settles O34: in one cycle by the level step, over the other commands by the mapped writes. -/
theorem phaseChangesOnlyAtEdgeOrLevelStep : Obligations.PhaseChangesOnlyAtEdgeOrLevelStep := by
  refine ⟨fun s t v h hne => ?_, fun i s t v h hclk hreset hne => ?_⟩
  · have hstep : t.chip.env.get v = envStep (s.chip.regs.voice.get v).attackDecay
        (s.chip.regs.voice.get v).sustainRelease (s.chip.env.get v) := env_of_exec_clk h v
    rcases envStep_counters_or_levelStep (s.chip.regs.voice.get v) (s.chip.env.get v) with ⟨rc, ec, hc⟩ | ⟨-, hl⟩
    · exact absurd (by rw [hstep, hc]) hne
    · rw [← hstep] at hl
      exact phase_change_of_levelStep hl hne
  · rcases exec_shape h with ⟨-, r, d, -, rfl⟩ | ⟨-, -, rfl⟩ | ⟨-, _, rfl⟩ | ⟨ho, rfl⟩ | ⟨-, _, rfl⟩ |
      ⟨-, _, _, -, -, rfl⟩ | ⟨ho, _, rfl⟩ | ⟨ho, _, rfl⟩ | ⟨-, _, rfl, -⟩ | ⟨-, _, -, rfl⟩ | ⟨-, _, -, -, rfl⟩
    · exact phase_change_of_regWrite hne
    · exact absurd rfl hne
    · exact absurd rfl hne
    · exact absurd ho hreset
    · exact absurd rfl hne
    · exact absurd rfl hne
    · exact absurd (.inl ho) hclk
    · exact absurd (.inr ho) hclk
    · exact absurd rfl hne
    · exact absurd rfl hne
    · exact absurd rfl hne

end Sys2Proof.Claims
end

section
/-! SUPPORT. Runs of an envelope from one rate tick to the next: the counter counted up and round, the delay bug, and the
periods of an attack (42_envelope.md R271, R276, R289). -/

namespace Sys2Proof.Claims

open Sys2Proof.Machine

/-! ## Counting to a rate tick -/

theorem countedUp_zero {rc : Nat} (h : rc < 2 ^ 15) : countedUp rc 0 = rc := if_pos h

theorem countedUp_lt {rc n : Nat} (hrc : rc < 2 ^ 15) (hn : n < 2 ^ 15) : countedUp rc n < 2 ^ 15 := by
  unfold countedUp
  split_ifs <;> omega

/-- An envelope with its rate counter n cycles on, where none of them is a rate tick. -/
def counted (e : Env) (n : Nat) : Env := { e with rc := BitVec.ofNat 15 (countedUp e.rc.toNat n) }

theorem counted_zero (e : Env) : counted e 0 = e := by
  rw [counted, countedUp_zero e.rc.isLt, BitVec.ofNat_toNat, BitVec.setWidth_eq]

/-- The next count of a counter that has been round at most once (42_envelope.md R271). -/
theorem rateCountNat_counted (e : Env) {n : Nat} (hn : n + 1 < 2 ^ 15) :
    rateCountNat (counted e n) = countedUp e.rc.toNat (n + 1) := by
  have hrc := e.rc.isLt
  have hlt := countedUp_lt hrc (by omega : n < 2 ^ 15)
  have htoNat : (counted e n).rc.toNat = countedUp e.rc.toNat n := Nat.mod_eq_of_lt hlt
  rw [rateCountNat, htoNat]
  unfold countedUp
  split_ifs <;> omega

/-- The rate counter meets the period in the n-th cycle from now, and in none before. -/
structure TickIn (n : Nat) (e : Env) : Prop where
  pos : 0 < n
  below : n < 2 ^ 15
  meets : countedUp e.rc.toNat n = e.rp.toNat
  misses : ∀ k, 0 < k → k < n → countedUp e.rc.toNat k ≠ e.rp.toNat

/-- A period above the counter is met on the way up (42_envelope.md R271). -/
theorem tickIn_of_lt {e : Env} (h : e.rc.toNat < e.rp.toNat) : TickIn (e.rp.toNat - e.rc.toNat) e := by
  have hrp := e.rp.isLt
  have hup : ∀ k, k ≤ e.rp.toNat - e.rc.toNat → countedUp e.rc.toNat k = e.rc.toNat + k := fun k hk =>
    if_pos (by omega)
  exact ⟨by omega, by omega, by rw [hup _ le_rfl]; omega, fun k _ hk => by rw [hup k hk.le]; omega⟩

/-- A period not above the counter is met only when it has gone round to 1 (42_envelope.md R276). -/
theorem tickIn_of_le {e : Env} (hpos : 1 ≤ e.rp.toNat) (h : e.rp.toNat ≤ e.rc.toNat) :
    TickIn (2 ^ 15 - e.rc.toNat + e.rp.toNat - 1) e := by
  have hrc := e.rc.isLt
  refine ⟨by omega, by omega, ?_, fun k _ hk => ?_⟩ <;> unfold countedUp <;> split_ifs <;> omega

section

variable (ad sr : Byte) {n : Nat} {e : Env} (h : TickIn n e)
include h

/-- Up to the tick the cycles count and do nothing else. -/
theorem cycles_before_tick {k : Nat} (hk : k < n) : repeatTimes (envStep ad sr) k e = counted e k := by
  have hbelow := h.below
  induction k with
  | zero => rw [repeatTimes_zero, counted_zero]
  | succ k ih =>
    have hnext := rateCountNat_counted e (n := k) (by omega)
    have hmiss : ¬isRateTick (counted e k) := by
      rw [isRateTick, hnext]
      exact h.misses (k + 1) (by omega) hk
    rw [repeatTimes_last, ih (by omega), envStep_of_not_tick ad sr hmiss, hnext]
    rfl

/-- The last of them is the tick. -/
theorem cycles_to_tick : repeatTimes (envStep ad sr) n e = rateTick ad sr { e with rc := 0#15 } := by
  have hbelow := h.below
  obtain ⟨k, rfl⟩ := Nat.exists_eq_succ_of_ne_zero h.pos.ne'
  have htick : isRateTick (counted e k) := by
    rw [isRateTick, rateCountNat_counted e hbelow]
    exact h.meets
  rw [repeatTimes_last, cycles_before_tick ad sr h (Nat.lt_succ_self k), envStep_of_tick ad sr htick]
  rfl

end

/-- What a rate tick does after it has cleared the rate counter leaves it cleared. -/
theorem rateTick_rc (ad sr : Byte) (e : Env) : (rateTick ad sr e).rc = e.rc := by
  obtain ⟨hrc, -⟩ := levelStep_frame ad sr { e with ec := 0#5 }
  unfold rateTick expTick
  split_ifs
  · rfl
  · rfl
  · exact hrc

/-- Settles O35: both distances are those of the next tick. -/
theorem adsrDelayBug : Obligations.AdsrDelayBug := by
  intro s v k e hpos
  refine ⟨_, rfl, ?_⟩
  rw [env_of_exec_clk (n := k) rfl v]
  have hrun : ∀ {n}, TickIn n e → ∀ ad sr,
      (k.toNat < n → repeatTimes (envStep ad sr) k.toNat e = counted e k.toNat) ∧
        (k.toNat = n → (repeatTimes (envStep ad sr) k.toNat e).rc = 0#15) := fun h ad sr =>
    ⟨cycles_before_tick ad sr h, fun hk => by rw [hk, cycles_to_tick ad sr h, rateTick_rc]⟩
  refine ⟨fun hle => hrun (tickIn_of_le hpos hle) _ _, fun hlt => ?_⟩
  obtain ⟨hbefore, hat⟩ := hrun (tickIn_of_lt hlt) (s.chip.regs.voice.get v).attackDecay
    (s.chip.regs.voice.get v).sustainRelease
  have hrp := e.rp.isLt
  refine ⟨fun hk => ?_, hat⟩
  rw [hbefore hk, counted, countedUp, if_pos (by omega)]

/-! ## The periods of an attack -/

/-- An attack from level 0 after k whole periods: level k, the counter just cleared, and DECAY begun at 255. -/
structure AttackAfter (period : BitVec 15) (k : Nat) (e : Env) : Prop where
  level : e.level.toNat = k
  phase : e.phase = if k = 255 then .decay else .attack
  counter : e.rc = 0#15
  free : e.holdZero = false
  rate : k ≠ 255 → e.rp = period

/-- One period of an attack is one level step: the exponential counter is bypassed (42_envelope.md R272, R289). -/
theorem attackAfter_succ (r : VoiceRegs) {period : BitVec 15} {k : Nat} {e : Env} (hpos : 1 ≤ period.toNat)
    (h : AttackAfter period k e) (hk : k < 255) :
    AttackAfter period (k + 1) (repeatTimes (envStep r.attackDecay r.sustainRelease) period.toNat e) := by
  have hrp := h.rate hk.ne
  have hphase : e.phase = .attack := by rw [h.phase, if_neg hk.ne]
  have hrc : e.rc.toNat = 0 := by rw [h.counter]; rfl
  have htick := tickIn_of_lt (e := e) (by rw [hrc, hrp]; exact hpos)
  rw [hrc, hrp, Nat.sub_zero] at htick
  rw [cycles_to_tick _ _ htick]
  have hstep := rateTick_levelStep r (e := { e with rc := 0#15 }) rfl (.inl hphase) h.free
  generalize rateTick r.attackDecay r.sustainRelease { e with rc := 0#15 } = e' at hstep
  obtain ⟨hcounter, -, -, hzero, hattack, -⟩ := hstep
  obtain ⟨hlevel, htop, hbelow⟩ := hattack hphase
  replace hlevel : e'.level.toNat = k + 1 := by
    rw [hlevel, h.level]
    omega
  have hmax : e'.level = 255#8 ↔ k + 1 = 255 := by rw [← BitVec.toNat_inj, hlevel]; rfl
  refine ⟨hlevel, ?_, hcounter, ?_, fun hne => (hbelow (mt hmax.mp hne)).2.trans hrp⟩
  · split_ifs with heq
    · exact (htop (hmax.mpr heq)).1
    · exact (hbelow (mt hmax.mp heq)).1
  · by_contra hheld
    rw [hzero.mp (Bool.eq_true_of_not_eq_false hheld)] at hlevel
    exact absurd hlevel (by simp)

/-- k periods of an attack (42_envelope.md R289). -/
theorem attackAfter_cycles (r : VoiceRegs) {period : BitVec 15} {e : Env} (hpos : 1 ≤ period.toNat)
    (h : AttackAfter period 0 e) {k : Nat} (hk : k ≤ 255) :
    AttackAfter period k (repeatTimes (envStep r.attackDecay r.sustainRelease) (k * period.toNat) e) := by
  induction k with
  | zero => rw [Nat.zero_mul]; exact h
  | succ k ih =>
    rw [Nat.succ_mul, repeatTimes_add]
    exact attackAfter_succ r hpos (ih (by omega)) (by omega)

/-- Settles O36: 255 periods of 15 bits fit one CLK. -/
theorem attackTakes255Periods : Obligations.AttackTakes255Periods := by
  intro s v k e hphase hlevel hrc hfree hpos hk
  refine ⟨_, rfl, ?_⟩
  have hcount : (BitVec.ofNat 28 (k * e.rp.toNat)).toNat = k * e.rp.toNat := by
    have hrp := e.rp.isLt
    have hmul : k * e.rp.toNat ≤ 255 * 2 ^ 15 := Nat.mul_le_mul hk hrp.le
    exact Nat.mod_eq_of_lt (by omega)
  have hstart : AttackAfter e.rp 0 e :=
    ⟨by rw [hlevel]; rfl, by rw [hphase]; rfl, hrc, hfree, fun _ => rfl⟩
  rw [env_of_exec_clk (n := BitVec.ofNat 28 (k * e.rp.toNat)) rfl v, hcount]
  have hend := attackAfter_cycles (s.chip.regs.voice.get v) hpos hstart hk
  exact ⟨hend.level, hend.phase⟩

end Sys2Proof.Claims
end

section
/-! SUPPORT. Routing, the sub-step loop and the resonance mapping in numbers (43_filter.md R324, R325, R328 to
R330). -/

namespace Sys2Proof.Machine

/-! ## Routing -/

/-- An input taken in the one case and in the other is taken once. -/
theorem takeIf_add_takeIf_not (b : Bool) (x : Int) : takeIf b x + takeIf (!b) x = x := by
  cases b <;> simp [takeIf]

/-- Each input goes to exactly one of the two sums (43_filter.md R328). -/
theorem filterPathSum_add_bypassSum (f : RegFile) (x : PerVoice Int) (xe : Int) :
    filterPathSum f x xe + bypassSum f x xe =
      routedInput f x .v0 + routedInput f x .v1 + routedInput f x .v2 + xe := by
  have hvoice := fun v => takeIf_add_takeIf_not (filtVoice f v) (routedInput f x v)
  have hext := takeIf_add_takeIf_not (filtExt f) xe
  rw [filterPathSum, bypassSum]
  linear_combination hvoice .v0 + hvoice .v1 + hvoice .v2 + hext

/-- OFF3 silences voice 2 where it is not routed (43_filter.md R328). -/
theorem routedInput_v2 (f : RegFile) (x : PerVoice Int) :
    routedInput f x .v2 = if f.modeVol.getLsbD 7 = true ∧ f.resFilt.getLsbD 2 = false then 0 else x.v2 := by
  simp [routedInput, filtVoice, off3Of]

/-! ## Sub-steps -/

/-- The last sub-step of a call: fewer cycles than a full one (43_filter.md R329). -/
theorem subStepPlan_of_lt {n : Nat} (hpos : n ≠ 0) (h : n < 8) : subStepPlan n = [n] := by
  simp [subStepPlan, subStepMax, Nat.div_eq_of_lt h, Nat.mod_eq_of_lt h, hpos]

/-- A full sub-step comes before the rest (43_filter.md R329). -/
theorem subStepPlan_of_le {n : Nat} (h : 8 ≤ n) : subStepPlan n = 8 :: subStepPlan (n - 8) := by
  obtain ⟨k, rfl⟩ := Nat.exists_eq_add_of_le' h
  simp [subStepPlan, subStepMax, List.replicate_succ]

/-! ## Resonance -/

/-- DIVQ with the fraction cleared is the real one (43_filter.md R324). -/
theorem divq_eq_floor (res : BitVec 4) : (divq res : Int) = ⌊(1024 : ℚ) / (0.707 + (res.toNat : ℚ) / 15)⌋ := by
  have hclear : (1024 : ℚ) / (0.707 + (res.toNat : ℚ) / 15) =
      ((1024 * 15000 : Nat) : ℚ) / ((10605 + 1000 * res.toNat : Nat) : ℚ) := by
    have hden : (0.707 + (res.toNat : ℚ) / 15) * 15000 = ((10605 + 1000 * res.toNat : Nat) : ℚ) := by
      push_cast
      ring
    have hnum : ((1024 * 15000 : Nat) : ℚ) = 1024 * 15000 := by norm_num
    rw [← hden, hnum, mul_div_mul_right _ _ (by norm_num)]
  rw [hclear, Rat.floor_natCast_div_natCast]
  rfl

/-- DIVQ fits its 11 bits, boosted or not. -/
theorem divq_lt (res : BitVec 4) : divq res < 2 ^ 11 :=
  Nat.lt_of_le_of_lt (Nat.div_le_div_left (Nat.le_add_right 10605 _) (by decide)) (by decide)

/-- A legal boost takes no more than all of DIVQ (43_filter.md R325). -/
theorem boost_share_le {boost : BitVec 9} (h : boost.toNat ≤ 256) (res : BitVec 4) :
    divq res * boost.toNat * res.toNat / (256 * 15) ≤ divq res := by
  refine Nat.div_le_of_le_mul ?_
  calc
    divq res * boost.toNat * res.toNat ≤ divq res * 256 * 15 :=
      Nat.mul_le_mul (Nat.mul_le_mul_left _ h) (Nat.le_of_lt_succ res.isLt)
    _ = 256 * 15 * divq res := by ring

/-- DIVQ under a legal boost, in numbers (43_filter.md R325). -/
theorem divqBoosted_toNat {boost : BitVec 9} (h : boost.toNat ≤ 256) (res : BitVec 4) :
    ((divqBoosted boost res).toNat : Int) =
      (divq res : Int) - ⌊(divq res : ℚ) * boost.toNat * res.toNat / (256 * 15)⌋ := by
  have hfits : (divqBoosted boost res).toNat = divq res - divq res * boost.toNat * res.toNat / (256 * 15) :=
    Nat.mod_eq_of_lt (Nat.lt_of_le_of_lt (Nat.sub_le _ _) (divq_lt res))
  have hshare : ⌊(divq res : ℚ) * boost.toNat * res.toNat / (256 * 15)⌋ =
      ((divq res * boost.toNat * res.toNat / (256 * 15) : Nat) : Int) := by
    exact_mod_cast Rat.floor_natCast_div_natCast (divq res * boost.toNat * res.toNat) (256 * 15)
  rw [hfits, hshare, Nat.cast_sub (boost_share_le h res)]

end Sys2Proof.Machine

namespace Sys2Proof.Claims

open Sys2Proof.Machine

/-- Settles O41: the two sums by the bit of each input, and each input once in their sum. -/
theorem routingSums : Obligations.RoutingSums := by
  intro f x xe
  refine ⟨?_, ?_, ?_⟩
  · simp only [filterPathSum, takeIf, routedInput_v2]
    rfl
  · simp only [bypassSum, takeIf, routedInput_v2, Bool.not_eq_true']
    rfl
  · rw [filterPathSum_add_bypassSum, routedInput_v2]
    rfl

/-- Settles O42, by whether a full sub-step is left. -/
theorem subStepLoop : Obligations.SubStepLoop := by
  refine ⟨fun n => ?_, fun _ _ _ => rfl, rfl⟩
  split_ifs with hzero
  · rw [hzero]
    rfl
  rcases Nat.lt_or_ge n 8 with hlt | hge
  · rw [min_eq_right hlt.le, Nat.sub_self, subStepPlan_of_lt hzero hlt]
    rfl
  · rw [min_eq_left hge, subStepPlan_of_le hge]

/-- Settles O43: the three statements as the model runs them. -/
theorem subStepStatements : Obligations.SubStepStatements := fun _ _ _ =>
  ⟨rfl, rfl, rfl, subStep_vnf _ _ _, subStep_w0 _ _ _, subStep_divq _ _ _⟩

/-- Settles O50: both fractions are floors of quotients of natural numbers. -/
theorem resonanceMapping : Obligations.ResonanceMapping := ⟨divq_eq_floor, fun _ res h => divqBoosted_toNat h res⟩

end Sys2Proof.Claims
end

section
/-! SUPPORT. The filter's integrators and the output: what keeps the integrators, a filter with no input at rest, and
the output sample in numbers (43_filter.md R332, R335, R336; 44_voice_mixer.md R380). -/

namespace Sys2Proof.Machine

/-! ## A filter at rest -/

/-- The three integrators at 0 (43_filter.md R336). -/
structure FiltAtRest (f : Filt) : Prop where
  vhp : f.vhp = 0#32
  vbp : f.vbp = 0#32
  vlp : f.vlp = 0#32

/-- With Vi = 0 a sub-step changes nothing of a filter at rest, whatever W0 and DIVQ. -/
theorem subStep_of_rest {f : Filt} (h : FiltAtRest f) (dt : Nat) : subStep 0 f dt = f := by
  obtain ⟨vhp, vbp, vlp, vnf, w0, divq⟩ := f
  obtain ⟨rfl, rfl, rfl⟩ : vhp = 0#32 ∧ vbp = 0#32 ∧ vlp = 0#32 := ⟨h.vhp, h.vbp, h.vlp⟩
  simp [subStep, asr, wrap32]

/-- Nor do the sub-steps of a call. -/
theorem runSubSteps_of_rest {f : Filt} (h : FiltAtRest f) (n : Nat) : runSubSteps 0 n f = f :=
  List.foldl_fixed' (subStep_of_rest h) _

/-- No input is routed into the filter (10_state.md R52). -/
def Unrouted (f : RegFile) : Prop := f.resFilt &&& 0x0F#8 = 0#8

/-- A byte under a mask that leaves nothing has every bit of the mask clear. -/
theorem getLsbD_of_and_eq_zero {d mask : Byte} (h : d &&& mask = 0#8) {k : Nat} (hk : mask.getLsbD k = true) :
    d.getLsbD k = false := by
  have hbit := congrArg (·.getLsbD k) h
  simpa [hk] using hbit

/-- With no input routed every routing bit is clear. -/
theorem routing_of_unrouted {f : RegFile} (h : Unrouted f) : (∀ v, filtVoice f v = false) ∧ filtExt f = false :=
  have hbit : ∀ k, (0x0F#8).getLsbD k = true → f.resFilt.getLsbD k = false := fun _ => getLsbD_of_and_eq_zero h
  ⟨fun v => by cases v <;> exact hbit _ (by decide), hbit 3 (by decide)⟩

/-- With no input routed Vi is 0 (43_filter.md R328). -/
theorem filterPathSum_of_unrouted {f : RegFile} (h : Unrouted f) (x : PerVoice Int) (xe : Int) :
    filterPathSum f x xe = 0 := by
  obtain ⟨hvoice, hext⟩ := routing_of_unrouted h
  simp [filterPathSum, takeIf, hvoice, hext]

/-- A clock of n cycles keeps an unrouted filter at rest (43_filter.md R331). -/
theorem chipClock_filtAtRest {c : Chip} (hroute : Unrouted c.regs) (h : FiltAtRest c.filt) (n : Nat) :
    FiltAtRest (chipClock n c).filt := by
  obtain ⟨hregs, hfilt, -⟩ := chipCycles_frame n c
  simp only [chipClock, filterHalf, filterClock, hregs, hfilt, filterPathSum_of_unrouted hroute, runSubSteps_of_rest h]
  exact ⟨h.vhp, h.vbp, h.vlp⟩

/-- So do n rendered samples, which leave the routing alone. -/
theorem renderChip_filtAtRest {c : Chip} (hroute : Unrouted c.regs) (h : FiltAtRest c.filt) (n : Nat) :
    FiltAtRest (renderChip n c).filt := by
  have hkeep : ∀ a : Chip, Unrouted a.regs ∧ FiltAtRest a.filt →
      Unrouted (renderOne a).regs ∧ FiltAtRest (renderOne a).filt := by
    rintro a ⟨hr, hf⟩
    refine ⟨?_, chipClock_filtAtRest (c := { a with clock := clockAdvance a.clock }) hr hf _⟩
    rw [(renderOne_frame a).1]
    exact hr
  exact (repeatTimes_keeps (P := fun a : Chip => Unrouted a.regs ∧ FiltAtRest a.filt) hkeep n ⟨hroute, h⟩).2

/-! ## The output sample -/

/-- OUT16 is the shaped VO (44_voice_mixer.md R380). -/
theorem conditioned_toInt (vo : Int) : (conditioned vo).toInt = max (-32768) (min 32767 (vo / 8)) := by
  have hsat : (sample16 (vo / 8)).toInt = sat16 (vo / 8) :=
    BitVec.toInt_ofInt_eq_self (by decide) (by unfold sat16; omega) (by unfold sat16; omega)
  show (sample16 (vo / 8)).toInt = _
  rw [hsat]
  unfold sat16
  omega

/-- VOL (10_state.md R52). -/
theorem volOf_toNat (f : RegFile) : (volOf f).toNat = f.modeVol.toNat % 16 := by
  rw [volOf, BitVec.extractLsb'_toNat, Nat.shiftRight_zero]

/-- The taps of a filter at rest sum to 0, whatever MODE. -/
theorem tapSum_of_rest {f : Filt} (h : FiltAtRest f) (mode : BitVec 3) : tapSum mode f = 0 := by
  simp [tapSum, takeIf, h.vhp, h.vbp, h.vlp]

/-- MODE = 0 selects no tap, whatever the filter. -/
theorem tapSum_of_mode_zero {r : RegFile} (h : r.modeVol &&& 0x70#8 = 0#8) (f : Filt) : tapSum (modeOf r) f = 0 := by
  have hmode : modeOf r = (r.modeVol &&& 0x70#8).extractLsb' 4 3 := by
    rw [BitVec.extractLsb'_and]
    exact BitVec.and_allOnes.symm
  rw [hmode, h]
  rfl

/-- With no tap in it, the output is the bypass mix with the DC offset at the volume (43_filter.md R332). -/
theorem filterOutput_of_no_tap {c : Chip} (h : tapSum (modeOf c.regs) c.filt = 0) :
    filterOutput c =
      (c.filt.vnf.toInt + (if c.modelActive = .a then -454 else 0)) * ((c.regs.modeVol.toNat % 16 : Nat) : Int) := by
  have hdc : mixerDc c.modelActive = if c.modelActive = .a then -454 else 0 := by cases c.modelActive <;> rfl
  rw [filterOutput, h, hdc, volOf_toNat, add_zero]

end Sys2Proof.Machine

namespace Sys2Proof.Claims

open Sys2Proof.Machine

/-- OUT16 in the words of the statements (44_voice_mixer.md R380). -/
theorem outSample_toInt (c : Chip) : (outSample c).toInt = shaped (filterOutput c) := conditioned_toInt _

/-- A mapped write leaves the integrators and the bypass latch alone (43_filter.md R335). -/
theorem integrators_regWrite (r : RegName) (d : Byte) (c : Chip) : integrators (regWrite r d c) = integrators c := by
  obtain ⟨-, -, -, -, hhp, hbp, hlp, hnf⟩ := regWrite_frame r d c
  simp only [integrators, hhp, hbp, hlp, hnf]

/-- Settles O45: of the operations that run no cycle only RESET moves the integrators. -/
theorem integratorContinuity : Obligations.IntegratorContinuity := fun _ _ _ h hclk hreset =>
  part_of_exec integrators h
    (write := fun _ r d c _ => integrators_regWrite r d c)
    (reset := fun ho => absurd ho hreset)
    (clk := fun ho => absurd (.inl ho) hclk)
    (render := fun ho => absurd (.inr ho) hclk)

/-- A filter with no input at rest stays there over every command: the clocking ones by the sub-steps, RESET by its own
values, and the others leave the integrators alone (43_filter.md R336). -/
theorem filtAtRest_of_exec {i : Instr} {s t : State} (h : exec i s = .next t) (hroute : Unrouted s.chip.regs)
    (hrest : FiltAtRest s.chip.filt) : FiltAtRest t.chip.filt := by
  rcases exec_shape h with ⟨-, r, d, -, rfl⟩ | ⟨-, -, rfl⟩ | ⟨-, _, rfl⟩ | ⟨-, rfl⟩ | ⟨-, _, rfl⟩ |
    ⟨-, _, _, -, -, rfl⟩ | ⟨-, n, rfl⟩ | ⟨-, n, rfl⟩ | ⟨-, _, rfl, -⟩ | ⟨-, _, -, rfl⟩ | ⟨-, _, -, -, rfl⟩
  · obtain ⟨-, -, -, -, hhp, hbp, hlp, -⟩ := regWrite_frame r d s.chip
    exact ⟨hhp.trans hrest.vhp, hbp.trans hrest.vbp, hlp.trans hrest.vlp⟩
  · exact hrest
  · exact hrest
  · exact ⟨rfl, rfl, rfl⟩
  · exact hrest
  · exact hrest
  · exact chipClock_filtAtRest hroute hrest n
  · exact renderChip_filtAtRest hroute hrest n
  · exact hrest
  · exact ⟨hrest.vhp, hrest.vbp, hrest.vlp⟩
  · exact hrest

/-- Settles O46: a filter with no input stays at rest, and a filter at rest and MODE = 0 alike give no tap. -/
theorem unroutedFilterStaysAtRest : Obligations.UnroutedFilterStaysAtRest := by
  refine ⟨fun i s t h hroute hhp hbp hlp => ?_, fun c hquiet => ?_⟩
  · obtain ⟨hhp', hbp', hlp'⟩ := filtAtRest_of_exec h hroute ⟨hhp, hbp, hlp⟩
    exact ⟨hhp', hbp', hlp'⟩
  · have htap : tapSum (modeOf c.regs) c.filt = 0 := by
      rcases hquiet with ⟨hhp, hbp, hlp⟩ | hmode
      · exact tapSum_of_rest ⟨hhp, hbp, hlp⟩ _
      · exact tapSum_of_mode_zero hmode _
    rw [outSample_toInt, filterOutput_of_no_tap htap]

end Sys2Proof.Claims
end

section
/-! SUPPORT. The cutoff curve: one segment is R321's cubic in Hermite form, the table is in order, so the segments agree
at the knots they share, and together they leave no FC out (43_filter.md R321, R322). -/

namespace Sys2Proof.Claims

open Sys2Proof.Machine

/-! ## One segment -/

/-- R321's coefficients give the cubic in Hermite form. -/
theorem splineCubic_eq_hermite {p q : Nat × Nat} (h : p.1 < q.1) (k1 k2 x : ℚ) :
    splineCubic p.1 p.2 q.1 q.2 k1 k2 x = hermite p q k1 k2 x := by
  have hne : (q.1 : ℚ) - p.1 ≠ 0 := sub_ne_zero.mpr (by exact_mod_cast h.ne')
  simp only [splineCubic, hermite]
  field_simp
  ring

/-- R321's end slopes, by which ends repeat. -/
theorem splineSlopes_eq (p0 p1 p2 p3 : Nat × Nat) :
    splineSlopes p0.1 p0.2 p1.1 p1.2 p2.1 p2.2 p3.1 p3.2 = (startSlope p0 p1 p2 p3, endSlope p0 p1 p2 p3) := by
  simp only [splineSlopes, startSlope, endSlope, secant, Nat.cast_inj]
  by_cases hstart : p0.1 = p1.1 <;> by_cases hend : p2.1 = p3.1 <;> simp [hstart, hend, mul_div_assoc]

/-- The value of a segment at x, as a number of hertz. -/
def segmentValue (p0 p1 p2 p3 : Nat × Nat) (x : Nat) : Nat :=
  ⌊max 0 (hermite p1 p2 (startSlope p0 p1 p2 p3) (endSlope p0 p1 p2 p3) (x : ℚ))⌋.toNat

theorem segmentValue_cast (p0 p1 p2 p3 : Nat × Nat) (x : Nat) :
    (segmentValue p0 p1 p2 p3 x : Int) =
      ⌊max 0 (hermite p1 p2 (startSlope p0 p1 p2 p3) (endSlope p0 p1 p2 p3) (x : ℚ))⌋ :=
  Int.toNat_of_nonneg (Int.floor_nonneg.mpr (le_max_left _ _))

theorem splineSegment_of_covers {p0 p1 p2 p3 : Nat × Nat} {x : Nat} (h : p1.1 < p2.1) (hlow : p1.1 ≤ x)
    (hhigh : x ≤ p2.1) : splineSegment p0 p1 p2 p3 x = some (segmentValue p0 p1 p2 p3 x) := by
  have hin : ¬(p1.1 = p2.1 ∨ x < p1.1 ∨ p2.1 < x) := by omega
  rw [splineSegment, if_neg hin, splineSlopes_eq]
  simp only [splineCubic_eq_hermite h]
  rfl

theorem splineSegment_of_not_covers {p0 p1 p2 p3 : Nat × Nat} {x : Nat} (h : p1.1 = p2.1 ∨ x < p1.1 ∨ p2.1 < x) :
    splineSegment p0 p1 p2 p3 x = none := if_pos h

/-- A segment starts at its first knot. -/
theorem segmentValue_start (p0 p1 p2 p3 : Nat × Nat) : segmentValue p0 p1 p2 p3 p1.1 = p1.2 := by
  simp [segmentValue, hermite]

/-- A segment ends at its second knot. -/
theorem segmentValue_end {p1 p2 : Nat × Nat} (h : p1.1 < p2.1) (p0 p3 : Nat × Nat) :
    segmentValue p0 p1 p2 p3 p2.1 = p2.2 := by
  have hne : (p2.1 : ℚ) - p1.1 ≠ 0 := sub_ne_zero.mpr (by exact_mod_cast h.ne')
  norm_num [segmentValue, hermite, div_self hne]

/-! ## A list of points -/

/-- The points stand in order, and points at one abscissa are one point. -/
def PointsInOrder (points : List (Nat × Nat)) : Prop :=
  points.Pairwise fun p q => p.1 ≤ q.1 ∧ (p.1 = q.1 → p.2 = q.2)

/-- Points at one abscissa are one point, whichever comes first. -/
theorem PointsInOrder.snd_eq {points : List (Nat × Nat)} (h : PointsInOrder points) {p q : Nat × Nat} (hp : p ∈ points)
    (hq : q ∈ points) (hx : p.1 = q.1) : p.2 = q.2 := by
  have hsymm : Std.Symm fun p q : Nat × Nat => p.1 = q.1 → p.2 = q.2 := ⟨fun _ _ hpq hx => (hpq hx.symm).symm⟩
  have hall := List.Pairwise.forall_of_forall (fun _ _ _ => rfl) (h.imp fun hpq => hpq.2)
  exact hall hp hq hx

/-- The points from one on: none before it, and those at its abscissa are it. -/
theorem PointsInOrder.from_head {p : Nat × Nat} {rest : List (Nat × Nat)} (h : PointsInOrder (p :: rest)) :
    ∀ q ∈ p :: rest, p.1 ≤ q.1 ∧ (p.1 = q.1 → p.2 = q.2) := by
  rintro q (_ | ⟨_, hq⟩)
  · exact ⟨le_rfl, fun _ => rfl⟩
  · exact List.rel_of_pairwise_cons h hq

/-- Four consecutive points of a list make a segment, and x lies on it, both ends included. -/
structure OnSegment (points : List (Nat × Nat)) (p0 p1 p2 p3 : Nat × Nat) (x : Nat) : Prop where
  run : [p0, p1, p2, p3] <:+: points
  rising : p1.1 < p2.1
  low : p1.1 ≤ x
  high : x ≤ p2.1

/-- Every abscissa from a second point's to a last but one point's lies on a segment. -/
theorem exists_onSegment {p0 p1 q : Nat × Nat} {rest : List (Nat × Nat)} {x : Nat} (hlow : p1.1 ≤ x)
    (hq : q ∈ rest.dropLast) (hlt : p1.1 < q.1) (hhigh : x ≤ q.1) :
    ∃ a b c d, OnSegment (p0 :: p1 :: rest) a b c d x := by
  induction rest generalizing p0 p1 with
  | nil => simp at hq
  | cons p2 rest ih =>
    rcases rest with _ | ⟨p3, rest⟩
    · simp at hq
    by_cases hseg : p1.1 < p2.1 ∧ x ≤ p2.1
    · exact ⟨p0, p1, p2, p3, ⟨[], rest, rfl⟩, hseg.1, hlow, hseg.2⟩
    · rw [List.dropLast_cons_cons, List.mem_cons] at hq
      have hne : q ≠ p2 := by
        rintro rfl
        omega
      obtain ⟨a, b, c, d, hon⟩ := ih (p0 := p1) (p1 := p2) (by omega) (hq.resolve_left hne) (by omega)
      exact ⟨a, b, c, d, hon.run.trans (List.suffix_cons p0 _).isInfix, hon.rising, hon.low, hon.high⟩

/-- The first point of a list has no say but in the value its segment leaves. -/
theorem splineAt_cons (p : Nat × Nat) (points : List (Nat × Nat)) (x acc : Nat) :
    ∃ acc', splineAt (p :: points) x acc = splineAt points x acc' :=
  match points with
  | _ :: _ :: _ :: _ => ⟨_, rfl⟩
  | [] | [_] | [_, _] => ⟨acc, rfl⟩

/-- Nor have the points before a part of the list. -/
theorem splineAt_append (before points : List (Nat × Nat)) (x acc : Nat) :
    ∃ acc', splineAt (before ++ points) x acc = splineAt points x acc' := by
  induction before generalizing acc with
  | nil => exact ⟨acc, rfl⟩
  | cons p before ih =>
    obtain ⟨acc', hcons⟩ := splineAt_cons p (before ++ points) x acc
    obtain ⟨acc'', happend⟩ := ih acc'
    exact ⟨acc'', hcons.trans happend⟩

/-- Where no point after the first lies before x, and those at x stand at the value so far, that value stays. -/
theorem splineAt_of_past {points : List (Nat × Nat)} {x v : Nat}
    (h : ∀ q ∈ points.tail, x ≤ q.1 ∧ (q.1 = x → q.2 = v)) : splineAt points x v = v := by
  induction points with
  | nil => rfl
  | cons p0 rest ih =>
    match rest, h, ih with
    | p1 :: p2 :: p3 :: rest, h, ih =>
      have hhead : (splineSegment p0 p1 p2 p3 x).getD v = v := by
        obtain ⟨hx, hv⟩ := h p1 (by simp)
        by_cases hcovers : p1.1 < p2.1 ∧ p1.1 = x
        · obtain ⟨hlt, rfl⟩ := hcovers
          rw [splineSegment_of_covers hlt le_rfl hlt.le, segmentValue_start, hv rfl]
          rfl
        · obtain ⟨hx2, -⟩ := h p2 (by simp)
          rw [splineSegment_of_not_covers (by omega)]
          rfl
      rw [splineAt, hhead]
      exact ih fun q hq => h q (List.mem_of_mem_tail hq)
    | [], _, _ | [_], _, _ | [_, _], _, _ => rfl

section

variable {points : List (Nat × Nat)} {p0 p1 p2 p3 : Nat × Nat} {x : Nat} (horder : PointsInOrder points)
  (h : OnSegment points p0 p1 p2 p3 x)
include horder h

/-- No point lies between the ends of a segment: the points up to its start, and those from its end on. -/
theorem onSegment_split : ∃ before after, points = before ++ p0 :: p1 :: p2 :: p3 :: after ∧
    (∀ q ∈ before ++ [p0, p1], q.1 ≤ p1.1) ∧ ∀ q ∈ p2 :: p3 :: after, p2.1 ≤ q.1 ∧ (p2.1 = q.1 → p2.2 = q.2) := by
  obtain ⟨before, after, rfl⟩ := h.run
  rw [List.append_assoc] at horder
  obtain ⟨-, hrun, hbefore⟩ := List.pairwise_append.mp horder
  have hp0 : p0.1 ≤ p1.1 := (List.rel_of_pairwise_cons hrun List.mem_cons_self).1
  refine ⟨before, after, List.append_assoc _ _ _, fun q hq => ?_, PointsInOrder.from_head hrun.of_cons.of_cons⟩
  rcases List.mem_append.mp hq with hq | hq
  · exact (hbefore q hq p1 (by simp)).1
  · rcases hq with _ | ⟨_, _ | ⟨_, hq⟩⟩
    · exact hp0
    · exact le_rfl
    · cases hq

/-- In a list in order a segment that x lies on says the value at x: a later one that covers x too only starts
there. -/
theorem splineAt_of_onSegment (acc : Nat) : splineAt points x acc = segmentValue p0 p1 p2 p3 x := by
  obtain ⟨before, after, rfl, -, hfrom⟩ := onSegment_split horder h
  obtain ⟨acc', happend⟩ := splineAt_append before (p0 :: p1 :: p2 :: p3 :: after) x acc
  rw [happend, splineAt, splineSegment_of_covers h.rising h.low h.high, Option.getD_some]
  refine splineAt_of_past fun q hq => ?_
  obtain ⟨hge, hsame⟩ := hfrom q hq
  refine ⟨h.high.trans hge, fun hx => ?_⟩
  have hend : x = p2.1 := by have := h.high; omega
  rw [hend, segmentValue_end h.rising, hsame (by omega)]

/-- A segment passes through every point it covers: no point lies between its ends. -/
theorem segmentValue_of_mem {q : Nat × Nat} (hq : q ∈ points) (hx : q.1 = x) : segmentValue p0 p1 p2 p3 x = q.2 := by
  have hsame : ∀ p ∈ [p0, p1, p2, p3], p.1 = q.1 → p.2 = q.2 := fun p hp => horder.snd_eq (h.run.subset hp) hq
  have hends : p1.1 = x ∨ p2.1 = x := by
    have hlow := h.low
    have hhigh := h.high
    obtain ⟨before, after, rfl, hbefore, hfrom⟩ := onSegment_split horder h
    have hside : q ∈ before ++ [p0, p1] ∨ q ∈ p2 :: p3 :: after := by
      rw [← List.mem_append]
      simpa using hq
    rcases hside with hside | hside
    · exact .inl (by have := hbefore q hside; omega)
    · exact .inr (by have := (hfrom q hside).1; omega)
  rcases hends with hend | hend
  · rw [← hend, segmentValue_start]
    exact hsame p1 (by simp) (hend.trans hx.symm)
  · rw [← hend, segmentValue_end h.rising]
    exact hsame p2 (by simp) (hend.trans hx.symm)

end

/-! ## The two tables -/

/-- Both default tables are in order (43_filter.md R322). -/
theorem cutoffPoints_inOrder (m : ChipModel) : PointsInOrder (cutoffPoints m) := by
  unfold PointsInOrder
  cases m <;> decide

/-- Their abscissas are values of FC. -/
theorem cutoffPoints_fst_lt (m : ChipModel) : ∀ p ∈ cutoffPoints m, p.1 < 2 ^ 11 := by
  cases m <;> decide

/-- Every value of FC lies on a segment: the tables run from 0 to 2047 (log 15). -/
theorem cutoffPoints_onSegment (m : ChipModel) {x : Nat} (h : x < 2 ^ 11) :
    ∃ p0 p1 p2 p3, OnSegment (cutoffPoints m) p0 p1 p2 p3 x := by
  have hx : x ≤ 2047 := by omega
  cases m with
  | a => exact exists_onSegment (p1 := (0, 220)) (q := (2047, 18000)) (Nat.zero_le x) (by decide) (by decide) hx
  | b => exact exists_onSegment (p1 := (0, 0)) (q := (2047, 12500)) (Nat.zero_le x) (by decide) (by decide) hx

/-- The cutoff at FC = x is that of the segment x lies on. -/
theorem cutoffHz_of_onSegment {m : ChipModel} {p0 p1 p2 p3 : Nat × Nat} {x : Nat}
    (h : OnSegment (cutoffPoints m) p0 p1 p2 p3 x) :
    cutoffHz m (BitVec.ofNat 11 x) = segmentValue p0 p1 p2 p3 x := by
  have hx : x < 2 ^ 11 := h.high.trans_lt (cutoffPoints_fst_lt m p2 (h.run.subset (by simp)))
  rw [cutoffHz, BitVec.toNat_ofNat, Nat.mod_eq_of_lt hx, splineAt_of_onSegment (cutoffPoints_inOrder m) h]

/-- Settles O48: every FC lies on a segment, that segment says its cutoff, and passes through the points it covers. -/
theorem splineKnots : Obligations.SplineKnots := by
  refine ⟨fun m p hp => ?_, fun m p0 p1 p2 p3 x hrun hrising hlow hhigh => ?_, fun m fc => ?_⟩
  · obtain ⟨p0, p1, p2, p3, hseg⟩ := cutoffPoints_onSegment m (cutoffPoints_fst_lt m p hp)
    rw [cutoffHz_of_onSegment hseg, segmentValue_of_mem (cutoffPoints_inOrder m) hseg hp rfl]
  · rw [cutoffHz_of_onSegment ⟨hrun, hrising, hlow, hhigh⟩, segmentValue_cast]
  · obtain ⟨p0, p1, p2, p3, hrun, hrising, hlow, hhigh⟩ := cutoffPoints_onSegment m fc.isLt
    exact ⟨p0, p1, p2, p3, hrun, hrising, hlow, hhigh⟩

end Sys2Proof.Claims
end

section
/-! SUPPORT. The hertz of a cutoff as W0: the twenty decimals of pi give the floor of real arithmetic
(43_filter.md R323; log 10). -/

namespace Sys2Proof.Machine

/-- Below saturation the digits of pi after the twentieth decimal do not reach the floor. 538193 / 81688 is a convergent
of 2 * pi * 1.048576 from below, so the next integer is at least 1 / 81688 above f0 times the convergent, and the two
approximations are closer to that product than this. -/
theorem w0_floor_of_next_digit {f0 : Nat} (h : f0 ≤ 159155) :
    (piDigits + 1) * (2 * 1048576 * f0) / (10 ^ 6 * 10 ^ 20) = piDigits * (2 * 1048576 * f0) / (10 ^ 6 * 10 ^ 20) := by
  have hfloor := Nat.div_add_mod (piDigits * (2 * 1048576 * f0)) (10 ^ 6 * 10 ^ 20)
  have hmod := Nat.mod_lt (piDigits * (2 * 1048576 * f0)) (show 0 < 10 ^ 6 * 10 ^ 20 by decide)
  refine Nat.div_eq_of_lt_le ?_ ?_
  · exact (Nat.div_mul_le_self _ _).trans (Nat.mul_le_mul_right _ (Nat.le_succ _))
  · generalize piDigits * (2 * 1048576 * f0) / (10 ^ 6 * 10 ^ 20) = n at *
    unfold piDigits at *
    by_contra hreached
    have hgap : 538193 * f0 + 1 ≤ 81688 * (n + 1) := by omega
    omega

/-- The digits of pi from below and from above. -/
theorem piDigits_le_pi : (piDigits : ℝ) / 10 ^ 20 ≤ Real.pi ∧ Real.pi ≤ ((piDigits + 1 : Nat) : ℝ) / 10 ^ 20 := by
  have hlow := Real.pi_gt_d20
  have hhigh := Real.pi_lt_d20
  unfold piDigits
  push_cast
  exact ⟨by linarith, by linarith⟩

/-- The floor of the angular cutoff in Q20 stands between the floors of the two approximations of pi. -/
theorem angular_floor_bounds (f0 : Nat) :
    piDigits * (2 * 1048576 * f0) / (10 ^ 6 * 10 ^ 20) ≤ ⌊2 * Real.pi * (f0 : ℝ) * 1.048576⌋₊ ∧
      ⌊2 * Real.pi * (f0 : ℝ) * 1.048576⌋₊ ≤ (piDigits + 1) * (2 * 1048576 * f0) / (10 ^ 6 * 10 ^ 20) := by
  obtain ⟨hlow, hhigh⟩ := piDigits_le_pi
  have hscale : (0 : ℝ) ≤ 2 * 1.048576 * f0 := by positivity
  have happrox : ∀ p : Nat,
      p * (2 * 1048576 * f0) / (10 ^ 6 * 10 ^ 20) = ⌊(p : ℝ) / 10 ^ 20 * (2 * 1.048576 * f0)⌋₊ := by
    intro p
    rw [← Nat.floor_div_eq_div (K := ℝ)]
    congr 1
    push_cast
    ring
  have hangular : 2 * Real.pi * (f0 : ℝ) * 1.048576 = Real.pi * (2 * 1.048576 * f0) := by ring
  rw [happrox, happrox, hangular]
  exact ⟨Nat.floor_le_floor (mul_le_mul_of_nonneg_right hlow hscale),
    Nat.floor_le_floor (mul_le_mul_of_nonneg_right hhigh hscale)⟩

/-- W0 of any whole number of hertz is that of real arithmetic: below saturation the two approximations agree, and from
159155 Hz on the lower one is saturated. -/
theorem w0OfHz_eq_real (f0 : Nat) :
    (w0OfHz f0 : Int) = min (2 ^ 20 - 1) ⌊2 * Real.pi * (f0 : ℝ) * 1.048576⌋ := by
  obtain ⟨hlow, hhigh⟩ := angular_floor_bounds f0
  have hnat : (⌊2 * Real.pi * (f0 : ℝ) * 1.048576⌋₊ : Int) = ⌊2 * Real.pi * (f0 : ℝ) * 1.048576⌋ :=
    Int.natCast_floor_eq_floor (by positivity)
  rw [← hnat, w0OfHz]
  rcases Nat.le_total f0 159155 with hf | hf
  · rw [w0_floor_of_next_digit hf] at hhigh
    omega
  · have hsaturated : 2 ^ 20 - 1 ≤ piDigits * (2 * 1048576 * f0) / (10 ^ 6 * 10 ^ 20) := by
      unfold piDigits
      omega
    omega

/-- W0 fits its 20 bits (43_filter.md R323). -/
theorem w0Table_toNat (m : ChipModel) (fc : BitVec 11) : (w0Table m fc).toNat = w0OfHz (cutoffHz m fc) :=
  Nat.mod_eq_of_lt (Nat.lt_of_le_of_lt (Nat.min_le_left _ _) (by decide))

end Sys2Proof.Machine

namespace Sys2Proof.Claims

open Sys2Proof.Machine

/-- Settles O49: the scaling is exact for any number of hertz, so for those of the curve. -/
theorem cutoffCoefficientScaling : Obligations.CutoffCoefficientScaling := fun m fc => by
  rw [w0Table_toNat, w0OfHz_eq_real]

end Sys2Proof.Claims
end

section
/-! SUPPORT. The voice sample and the filter's input stage in numbers: the range of VS[v], the draws of the dither
generator, the scaling with its gain, and the volume product at the output (44_voice_mixer.md R370 to R380). -/

namespace Sys2Proof.Machine

/-! ## The voice sample -/

/-- VS[v] without modulation (44_voice_mixer.md R370). -/
theorem voiceSample_of_am_off (wave : BitVec 12) (level : BitVec 8) (modulator : BitVec 12) :
    voiceSample false wave level modulator = ((wave.toNat : Int) - 0x800) * (level.toNat : Int) := rfl

/-- VS[v] with modulation (44_voice_mixer.md R371). -/
theorem voiceSample_of_am_on (wave : BitVec 12) (level : BitVec 8) (modulator : BitVec 12) :
    voiceSample true wave level modulator =
      ((wave.toNat : Int) - 0x800) * (level.toNat : Int) * (modulator.toNat : Int) / 4096 := rfl

/-- A signed 12-bit waveform at an 8-bit level fits 20 bits (44_voice_mixer.md R370). -/
theorem voiceProduct_range (wave : BitVec 12) (level : BitVec 8) :
    -522240 ≤ ((wave.toNat : Int) - 0x800) * (level.toNat : Int) ∧
      ((wave.toNat : Int) - 0x800) * (level.toNat : Int) ≤ 521985 := by
  have hwave := wave.isLt
  have hlevel := level.isLt
  have hbottom : 0 ≤ (wave.toNat : Int) * (level.toNat : Int) := by positivity
  have htop : 0 ≤ (0xFFF - (wave.toNat : Int)) * (level.toNat : Int) := mul_nonneg (by omega) (by omega)
  constructor <;> linarith

/-- A modulator below 4096 takes a sample toward 0, so it leaves no range that has 0 in it (44_voice_mixer.md R371). -/
theorem modulated_range {x lo hi : Int} (hx : lo ≤ x ∧ x ≤ hi) (hlo : lo ≤ 0) (hhi : 0 ≤ hi) (modulator : BitVec 12) :
    lo ≤ x * (modulator.toNat : Int) / 4096 ∧ x * (modulator.toNat : Int) / 4096 ≤ hi := by
  obtain ⟨hlow, hhigh⟩ := hx
  have hm := modulator.isLt
  have hbelow : 0 ≤ (x - lo) * (modulator.toNat : Int) := mul_nonneg (by omega) (by omega)
  have habove : 0 ≤ (hi - x) * (modulator.toNat : Int) := mul_nonneg (by omega) (by omega)
  constructor
  · rw [Int.le_ediv_iff_mul_le (by decide)]
    nlinarith
  · refine Int.ediv_le_of_le_mul (by decide) ?_
    nlinarith

/-- Both forms of VS[v] fit 20 bits (44_voice_mixer.md R370, R371). -/
theorem voiceSample_range (am : Bool) (wave : BitVec 12) (level : BitVec 8) (modulator : BitVec 12) :
    -522240 ≤ voiceSample am wave level modulator ∧ voiceSample am wave level modulator ≤ 521985 := by
  have hproduct := voiceProduct_range wave level
  cases am
  · exact hproduct
  · exact modulated_range hproduct (by decide) (by decide) modulator

/-! ## Scaling and gain -/

/-- X[v] in numbers (44_voice_mixer.md R372, R374). -/
theorem scaledInput_eq (vs dith : Int) (gain : BitVec 9) :
    scaledInput vs dith gain = (vs + dith) / 128 * (gain.toNat : Int) / 256 := rfl

/-- A gain of 256 is the identity (44_voice_mixer.md R374). -/
theorem scaledInput_of_unity (vs dith : Int) : scaledInput vs dith 256#9 = (vs + dith) / 128 :=
  Int.mul_ediv_cancel _ (by decide)

/-- With no boost DIVQ_B is DIVQ (43_filter.md R325). -/
theorem divqBoosted_zero_toNat (res : BitVec 4) : (divqBoosted 0#9 res).toNat = divq res := by
  have hshare : divq res - divq res * (0#9).toNat * res.toNat / (256 * 15) = divq res := by simp
  rw [divqBoosted, hshare]
  exact Nat.mod_eq_of_lt (divq_lt res)

end Sys2Proof.Machine

namespace Sys2Proof.Claims

open Sys2Proof.Machine

/-! ## The dither generator -/

/-- A shift left and its exclusive or, as a number: the bits past the word are dropped. -/
theorem xor_shiftLeft_toNat (x : Word) (k : Nat) :
    (x ^^^ (x <<< k)).toNat = (x.toNat ^^^ x.toNat * 2 ^ k) % 2 ^ 32 := by
  rw [BitVec.toNat_xor, BitVec.toNat_shiftLeft, Nat.shiftLeft_eq, Nat.xor_mod_two_pow, Nat.mod_eq_of_lt x.isLt]

/-- A shift right and its exclusive or, as a number. -/
theorem xor_shiftRight_toNat (x : Word) (k : Nat) : (x ^^^ (x >>> k)).toNat = x.toNat ^^^ x.toNat / 2 ^ k := by
  rw [BitVec.toNat_xor, BitVec.toNat_ushiftRight, Nat.shiftRight_eq_div_pow]

/-- One step of the generator is one draw (44_voice_mixer.md R373). -/
theorem ditherNext_toNat (x : Word) : (ditherNext x).toNat = ditherDraw x.toNat := by
  rw [ditherNext, xor_shiftLeft_toNat, xor_shiftRight_toNat, xor_shiftLeft_toNat, ditherDraw]

/-- The offset is the top seven bits of a draw (44_voice_mixer.md R373). -/
theorem ditherOffset_eq (x : Word) : ditherOffset x = ((x.toNat / 2 ^ 25 : Nat) : Int) := by
  rw [ditherOffset, BitVec.toNat_ushiftRight, Nat.shiftRight_eq_div_pow]

/-- DITH[v] in numbers: voice v takes draw v + 1, and 0 with dither off (44_voice_mixer.md R373). -/
theorem ditherOffsets_get (on : Bool) (x : Word) (v : VoiceId) :
    (ditherOffsets on x).get v = (ditherNat on x.toNat v : Int) := by
  cases on
  · cases v <;> rfl
  · cases v <;> simp only [ditherOffsets, ditherNat, PerVoice.get, if_true, ditherOffset_eq, ditherNext_toNat]

/-- DSTATE after a filter clock, in numbers (44_voice_mixer.md R373). -/
theorem ditherState_toNat (on : Bool) (x : Word) :
    (ditherState on x).toNat = if on = true then ditherDraw (ditherDraw (ditherDraw x.toNat)) else x.toNat := by
  cases on
  · rfl
  · simp only [ditherState, if_true, ditherNext_toNat]

/-- A draw fits 32 bits. -/
theorem ditherDraw_lt (x : Nat) : ditherDraw x < 2 ^ 32 := Nat.mod_lt _ (by decide)

/-- With dither off every offset is 0 (44_voice_mixer.md R373). -/
theorem ditherNat_off (x : Nat) (v : VoiceId) : ditherNat false x v = 0 := rfl

/-- A dither offset has seven bits. -/
theorem ditherNat_lt (on : Bool) (x : Nat) (v : VoiceId) : ditherNat on x v < 2 ^ 7 := by
  cases on
  · exact Nat.two_pow_pos 7
  · cases v <;> exact Nat.div_lt_of_lt_mul (ditherDraw_lt _)

/-! ## The input stage -/

/-- VS[v] of the chip, its modulator the voice before (44_voice_mixer.md R371). -/
theorem voiceSamples_get (c : Chip) (v : VoiceId) :
    (voiceSamples c).get v =
      voiceSample (c.ext.amEn.get v) (chipWave c v) (c.env.get v).level (chipWave c (voiceBefore v)) := by
  rw [voiceSamples, get_ofFn, syncSource_eq_voiceBefore]

/-- X[v] of a filter clock (44_voice_mixer.md R376). -/
theorem scaledInputs_get (ext : Ext) (dstate : Word) (vs : PerVoice Int) (v : VoiceId) :
    (scaledInputs ext dstate vs).get v =
      scaledInput (vs.get v) (ditherNat ext.ditherEn dstate.toNat v : Int) (ext.gain.get v) := by
  rw [scaledInputs, get_ofFn, ditherOffsets_get]

/-- X[v] at unity gain (44_voice_mixer.md R374). -/
theorem scaledInputs_of_unity {ext : Ext} {v : VoiceId} (hgain : ext.gain.get v = 256#9) (dstate : Word)
    (vs : PerVoice Int) :
    (scaledInputs ext dstate vs).get v = (vs.get v + (ditherNat ext.ditherEn dstate.toNat v : Int)) / 128 := by
  rw [scaledInputs_get, hgain, scaledInput_of_unity]

/-- X[v] at unity gain and with dither off: the sample alone (44_voice_mixer.md R377). -/
theorem scaledInputs_of_unity_of_no_dither {ext : Ext} {v : VoiceId} (hgain : ext.gain.get v = 256#9)
    (hdither : ext.ditherEn = false) (dstate : Word) (vs : PerVoice Int) :
    (scaledInputs ext dstate vs).get v = vs.get v / 128 := by
  rw [scaledInputs_of_unity hgain, hdither, ditherNat_off, Nat.cast_zero, add_zero]

/-- Settles O38: the modulator is the voice before, and both forms have the range of a voice sample. -/
theorem voiceSampleFormulaAndRange : Obligations.VoiceSampleFormulaAndRange := by
  intro c v
  rw [voiceSamples_get]
  refine ⟨fun hoff => ?_, fun hon => ?_, voiceSample_range _ _ _ _⟩
  · rw [hoff, voiceSample_of_am_off]
  · rw [hon, voiceSample_of_am_on]

/-- Settles O39: the offsets and DSTATE by the draws in voice order. -/
theorem filterInputStage : Obligations.FilterInputStage := by
  intro c vs n e
  refine ⟨fun v => ?_, ?_⟩
  · rw [scaledInputs_get, scaledInput_eq]
  · rw [filterClock_dstate, ditherState_toNat]

/-- Settles O40: the range of a voice sample and that of its offset, divided by 128. -/
theorem filterInputRanges : Obligations.FilterInputRanges := by
  intro c v hgain
  have hoffset := ditherNat_lt c.ext.ditherEn c.dstate.toNat v
  obtain ⟨hlow, hhigh⟩ : -522240 ≤ (voiceSamples c).get v ∧ (voiceSamples c).get v ≤ 521985 := by
    rw [voiceSamples_get]
    exact voiceSample_range _ _ _ _
  refine ⟨?_, ?_, scaledInputs_of_unity hgain _ _, fun hoff => scaledInputs_of_unity_of_no_dither hgain hoff _ _⟩
  · rw [scaledInputs_of_unity hgain]
    omega
  · split_ifs with hdither
    · rw [scaledInputs_of_unity hgain]
      omega
    · rw [scaledInputs_of_unity_of_no_dither hgain (Bool.eq_false_of_not_eq_true hdither)]
      omega

/-- Settles O58: the input stage with no offset, no gain and no modulation, DSTATE with no draw, DIVQ with no boost. -/
theorem extensionsOffAreExact : Obligations.ExtensionsOffAreExact := by
  intro c n hdither hgain ham hboost
  refine ⟨fun v => ?_, ?_, fun res => ?_⟩
  · rw [scaledInputs_of_unity_of_no_dither (hgain v) hdither, voiceSamples_get, ham v, voiceSample_of_am_off]
  · rw [filterClock_dstate, hdither]
    rfl
  · rw [hboost, divqBoosted_zero_toNat]

/-! ## The output -/

/-- The bits of MODE select the taps (10_state.md R52, 43_filter.md R332). -/
theorem tapSum_modeOf (r : RegFile) (f : Filt) :
    tapSum (modeOf r) f =
      (if r.modeVol.getLsbD 4 = true then f.vlp.toInt else 0) +
        (if r.modeVol.getLsbD 5 = true then f.vbp.toInt else 0) +
        (if r.modeVol.getLsbD 6 = true then f.vhp.toInt else 0) := by
  simp [tapSum, takeIf, modeOf]

/-- MIXER_DC in numbers (43_filter.md R332). -/
theorem mixerDc_eq (m : ChipModel) : mixerDc m = if m = .a then -454 else 0 := by cases m <;> rfl

/-- VO in numbers (43_filter.md R332). -/
theorem filterOutput_eq_outputInt (c : Chip) : filterOutput c = outputInt c := by
  rw [filterOutput, outputInt, tapSum_modeOf, mixerDc_eq, volOf_toNat]
  simp only [add_assoc]

/-- Settles O47: VO in numbers, then the shaper. -/
theorem outputSample : Obligations.OutputSample := fun c =>
  ⟨filterOutput_eq_outputInt c, by rw [outSample_toInt, filterOutput_eq_outputInt]⟩

end Sys2Proof.Claims
end

section
/-! SUPPORT. Register writes in the words of the statements: the byte stored, the oscillator and the envelope half of a
write, and what every mapped write leaves (45_chip_commands.md R400 to R412). -/

namespace Sys2Proof.Claims

open Sys2Proof.Machine

/-- A mask of all ones stores the whole byte (45_chip_commands.md R401). -/
theorem and_full_mask (d : Byte) : d &&& 0xFF#8 = d := BitVec.and_allOnes

/-- A WR of a register in the words of the statements: the masked byte stored, whatever the write does to an oscillator
and an envelope, and the active model and the coefficients after them (45_chip_commands.md R400). -/
theorem exec_wrTo_afterWrite (r : RegName) (d : Byte) (s : State) :
    exec (wrTo r d) s =
      .next (afterWrite s (setReg s.chip.regs r (d &&& regMask r)) (regWrite r d s.chip).osc
        (regWrite r d s.chip).env) := by
  rw [exec_wrTo]
  cases r <;> rfl

/-- A WR of a register with no unused bit (45_chip_commands.md R401). -/
theorem exec_wrTo_of_full_mask {r : RegName} (h : regMask r = 0xFF#8) (d : Byte) (s : State) :
    exec (wrTo r d) s =
      .next (afterWrite s (setReg s.chip.regs r d) (regWrite r d s.chip).osc (regWrite r d s.chip).env) := by
  rw [exec_wrTo_afterWrite, h, and_full_mask]

/-! ## Frequency and pulse width -/

/-- Settles O8: FREQ_LO and FREQ_HI have no unused bit, and F is the two bytes side by side. -/
theorem writeFrequency : Obligations.WriteFrequency := fun d s =>
  have hlo (v : VoiceId) := exec_wrTo_of_full_mask (r := .freqLo v) rfl d s
  have hhi (v : VoiceId) := exec_wrTo_of_full_mask (r := .freqHi v) rfl d s
  ⟨hlo .v0, hlo .v1, hlo .v2, hhi .v0, hhi .v1, hhi .v2, fun _ => rfl, fun _ => rfl⟩

/-- The mask of PW_HI keeps the bits PW reads (45_chip_commands.md R406, 10_state.md R52). -/
theorem extractLsb'_and_pwHi_mask (d : Byte) : (d &&& 0x0F#8).extractLsb' 0 4 = d.extractLsb' 0 4 := by
  rw [BitVec.extractLsb'_and]
  exact BitVec.and_allOnes

/-- Settles O9: PW_LO has no unused bit, and those of PW_HI are not in PW. -/
theorem writePulseWidth : Obligations.WritePulseWidth := fun d s =>
  have hlo (v : VoiceId) := exec_wrTo_of_full_mask (r := .pwLo v) rfl d s
  have hhi (v : VoiceId) := exec_wrTo_afterWrite (.pwHi v) d s
  ⟨hlo .v0, hlo .v1, hlo .v2, hhi .v0, hhi .v1, hhi .v2, fun _ => rfl,
    fun v => congrArg (· ++ (voiceRegs s v).pwLo) (extractLsb'_and_pwHi_mask d)⟩

/-! ## CONTROL -/

/-- The TEST rule (41_oscillator.md R232). -/
theorem oscWriteControl_eq_oscAfterControl (old d : Byte) (o : Osc) :
    oscWriteControl old d o = oscAfterControl old d o := by
  unfold oscWriteControl oscAfterControl testCleared testBit
  cases d.getLsbD 3 <;> simp

/-- The gate edges (42_envelope.md R280). -/
theorem envWriteControl_eq_envAfterControl (r : VoiceRegs) (d : Byte) (e : Env) :
    envWriteControl r.control d r.attackDecay r.sustainRelease e = envAfterControl r d e := by
  simp only [envWriteControl, envAfterControl, gateOnEdge, gateOffEdge, gateBit, atkOf, relOf, Bool.and_eq_true,
    Bool.not_eq_true']

/-- The oscillators and the envelopes after a CONTROL write (45_chip_commands.md R407). -/
theorem regWrite_control_units (v : VoiceId) (d : Byte) (c : Chip) :
    (regWrite (.control v) d c).osc =
        c.osc.set v (oscWriteControl (c.regs.voice.get v).control (d &&& 0xFF#8) (c.osc.get v)) ∧
      (regWrite (.control v) d c).env =
        c.env.set v (envWriteControl (c.regs.voice.get v).control (d &&& 0xFF#8) (c.regs.voice.get v).attackDecay
          (c.regs.voice.get v).sustainRelease (c.env.get v)) :=
  ⟨rfl, rfl⟩

/-- A WR of a CONTROL register (45_chip_commands.md R407). -/
theorem exec_wrTo_control (v : VoiceId) (d : Byte) (s : State) :
    exec (wrTo (.control v) d) s = .next (afterControl s v d) := by
  obtain ⟨hosc, henv⟩ := regWrite_control_units v d s.chip
  rw [exec_wrTo_of_full_mask rfl, hosc, henv, and_full_mask, oscWriteControl_eq_oscAfterControl,
    envWriteControl_eq_envAfterControl]
  rfl

/-- Settles O10. -/
theorem writeControl : Obligations.WriteControl := fun d s =>
  ⟨exec_wrTo_control .v0 d s, exec_wrTo_control .v1 d s, exec_wrTo_control .v2 d s⟩

/-! ## The rates -/

/-- The rate update of an ATTACK_DECAY write, by the phase (42_envelope.md R281). -/
theorem envWriteAttackDecay_eq_envAfterAttackDecay (d : Byte) (e : Env) :
    envWriteAttackDecay d e = envAfterAttackDecay d e := by
  unfold envWriteAttackDecay envAfterAttackDecay
  cases e.phase <;> rfl

/-- The rate update of a SUSTAIN_RELEASE write, by the phase (42_envelope.md R282). -/
theorem envWriteSustainRelease_eq_envAfterSustainRelease (d : Byte) (e : Env) :
    envWriteSustainRelease d e = envAfterSustainRelease d e := by
  unfold envWriteSustainRelease envAfterSustainRelease
  cases e.phase <;> rfl

/-- The envelopes after a write of a rate register (45_chip_commands.md R408, R409). -/
theorem regWrite_rates_env (v : VoiceId) (d : Byte) (c : Chip) :
    (regWrite (.attackDecay v) d c).env = c.env.set v (envWriteAttackDecay (d &&& 0xFF#8) (c.env.get v)) ∧
      (regWrite (.sustainRelease v) d c).env =
        c.env.set v (envWriteSustainRelease (d &&& 0xFF#8) (c.env.get v)) :=
  ⟨rfl, rfl⟩

/-- A WR of an ATTACK_DECAY register (45_chip_commands.md R408). -/
theorem exec_wrTo_attackDecay (v : VoiceId) (d : Byte) (s : State) :
    exec (wrTo (.attackDecay v) d) s = .next (afterAttackDecay s v d) := by
  obtain ⟨henv, -⟩ := regWrite_rates_env v d s.chip
  rw [exec_wrTo_of_full_mask rfl, henv, and_full_mask, envWriteAttackDecay_eq_envAfterAttackDecay]
  rfl

/-- A WR of a SUSTAIN_RELEASE register (45_chip_commands.md R409). -/
theorem exec_wrTo_sustainRelease (v : VoiceId) (d : Byte) (s : State) :
    exec (wrTo (.sustainRelease v) d) s = .next (afterSustainRelease s v d) := by
  obtain ⟨-, henv⟩ := regWrite_rates_env v d s.chip
  rw [exec_wrTo_of_full_mask rfl, henv, and_full_mask, envWriteSustainRelease_eq_envAfterSustainRelease]
  rfl

/-- Settles O11. -/
theorem writeEnvelopeRates : Obligations.WriteEnvelopeRates := fun d s =>
  ⟨exec_wrTo_attackDecay .v0 d s, exec_wrTo_attackDecay .v1 d s, exec_wrTo_attackDecay .v2 d s,
    exec_wrTo_sustainRelease .v0 d s, exec_wrTo_sustainRelease .v1 d s, exec_wrTo_sustainRelease .v2 d s⟩

/-! ## The global registers -/

/-- Settles O12: of the four only FC_LO has unused bits. -/
theorem writeFilterRegisters : Obligations.WriteFilterRegisters := fun d s =>
  ⟨exec_wrTo_afterWrite .fcLo d s, exec_wrTo_of_full_mask (r := .fcHi) rfl d s,
    exec_wrTo_of_full_mask (r := .resFilt) rfl d s, exec_wrTo_of_full_mask (r := .modeVol) rfl d s⟩

end Sys2Proof.Claims
end

section
/-! SUPPORT. The 25 register bytes as a list by address, RD of them, and every command on them (10_state.md R51,
20_memory.md R102, 45_chip_commands.md R400 to R402, R431). -/

namespace Sys2Proof.Machine

/-- Every address up to 0x18 is a register's (20_memory.md R100). -/
theorem exists_regAddr {a : Addr} (h : a.toNat ≤ 0x18) : ∃ r, regAddr r = a := by
  cases hreg : regAt a with
  | some r => exact ⟨r, regAddr_of_regAt hreg⟩
  | none =>
    unfold regAt at hreg
    split_ifs at hreg
    omega

/-- Every register's address is up to 0x18 (20_memory.md R100). -/
theorem regAddr_toNat_le (r : RegName) : (regAddr r).toNat ≤ 0x18 := by
  cases r with
  | freqLo v | freqHi v | pwLo v | pwHi v | control v | attackDecay v | sustainRelease v => cases v <;> decide
  | fcLo | fcHi | resFilt | modeVol => decide

/-- A register's address reads its byte (45_chip_commands.md R431). -/
theorem readAddr_regAddr (f : RegFile) (r : RegName) : readAddr f (regAddr r) = getReg f r := by
  rw [readAddr, regAt_regAddr]

/-- RESET leaves the pending model's coefficients of the cleared registers (43_filter.md R326). -/
theorem resetBody_coefficients (c : Chip) :
    c.resetBody.filt.w0 = w0Table c.modelPending (fcOf c.resetBody.regs) ∧
      c.resetBody.filt.divq = divqBoosted c.ext.boost (resOf c.resetBody.regs) :=
  ⟨congrArg (w0Table c.modelPending) (by decide : 0#11 = fcOf RegFile.reset),
    congrArg (divqBoosted c.ext.boost) (by decide : 0#4 = resOf RegFile.reset)⟩

/-- Rendered samples leave the registers, the active model and W0 alone. -/
theorem renderChip_registers (n : Nat) (c : Chip) :
    (renderChip n c).regs = c.regs ∧ (renderChip n c).modelActive = c.modelActive ∧
      (renderChip n c).filt.w0 = c.filt.w0 := by
  refine ⟨repeatTimes_part (f := renderOne) Chip.regs (fun a => ?_) n c,
    repeatTimes_part (f := renderOne) Chip.modelActive (fun a => ?_) n c,
    repeatTimes_part (f := renderOne) (fun a => a.filt.w0) (fun a => ?_) n c⟩ <;>
    obtain ⟨hregs, -, hactive, -, -, hw0, -⟩ := renderOne_frame a
  · exact hregs
  · exact hactive
  · exact hw0

end Sys2Proof.Machine

namespace Sys2Proof.Claims

open Sys2Proof.Machine

/-! ## The list of bytes -/

theorem registerBytes_length (f : RegFile) : (registerBytes f).length = 25 := rfl

/-- The byte at a register's address is the register's (20_memory.md R102). -/
theorem registerBytes_getD_regAddr (f : RegFile) (r : RegName) :
    (registerBytes f).getD (regAddr r).toNat 0x00#8 = getReg f r := by
  cases r with
  | freqLo v | freqHi v | pwLo v | pwHi v | control v | attackDecay v | sustainRelease v => cases v <;> rfl
  | fcLo | fcHi | resFilt | modeVol => rfl

/-- A register's write sets the byte at its address and no other (20_memory.md R102). -/
theorem registerBytes_setReg (f : RegFile) (r : RegName) (d : Byte) :
    registerBytes (setReg f r d) = (registerBytes f).set (regAddr r).toNat d := by
  cases r with
  | freqLo v | freqHi v | pwLo v | pwHi v | control v | attackDecay v | sustainRelease v => cases v <;> rfl
  | fcLo | fcHi | resFilt | modeVol => rfl

/-- MASK of a register is the mask of its address (45_chip_commands.md R401). -/
theorem writeMask_regAddr (r : RegName) : writeMask (regAddr r).toNat = regMask r := by
  cases r with
  | freqLo v | freqHi v | pwLo v | pwHi v | control v | attackDecay v | sustainRelease v => cases v <;> rfl
  | fcLo | fcHi | resFilt | modeVol => rfl

/-- RESET clears all 25 (10_state.md R90). -/
theorem registerBytes_reset : registerBytes RegFile.reset = List.replicate 25 0x00#8 := rfl

/-- Settles O14: every address up to 0x18 is a register's, and none above. -/
theorem readReturnsStoredByte : Obligations.ReadReturnsStoredByte := by
  intro a s
  split_ifs with h
  · obtain ⟨r, rfl⟩ := exists_regAddr h
    rw [registerBytes_getD_regAddr, ← readAddr_regAddr]
    rfl
  · exact execRd_of_unmapped (Nat.lt_of_not_le h) s

/-! ## Every command on the registers -/

/-- The word of a register's WR (30_encoding.md R142). -/
theorem wordOf_wrTo (r : RegName) (d : Byte) : wordOf (wrTo r d) = wordWr (regAddr r) d := by
  rw [wordOf, wrTo, (encode_wrCommand _ _).2]
  rfl

theorem opcode_wrTo (r : RegName) (d : Byte) : opcode (wrTo r d) = 0x1 := by
  rw [opcode, wordOf_wrTo, field_wordWr_op]

/-- A mapped write in the words of the statements is a WR of a register. -/
theorem isMappedWrite_wrTo (r : RegName) (d : Byte) : isMappedWrite (wrTo r d) := by
  refine ⟨opcode_wrTo r d, ?_⟩
  rw [wordOf_wrTo, field_wordWr_addr]
  exact regAddr_toNat_le r

section

variable {i : Instr} {s t : State} (h : exec i s = .next t)
include h

/-- Everything a WR can do: a mapped write, or nothing (45_chip_commands.md R400). -/
theorem write_of_exec (hwrite : opcode i = 0x1) :
    (∃ r d, i = wrTo r d ∧ t = finish (regWrite r d s.chip) s) ∨
      (0x18 < field (wordOf i) 8 5 ∧ t = finish s.chip s) := by
  simpa [hwrite] using exec_shape h

/-- The command of opcode 0x3 is RESET (45_chip_commands.md R420). -/
theorem reset_of_exec (hreset : opcode i = 0x3) : t = finish s.chip.resetBody s := by
  simpa [hreset] using exec_shape h

/-- Only a WR and RESET write the registers (10_state.md R51). -/
theorem regs_of_exec (hwrite : opcode i ≠ 0x1) (hreset : opcode i ≠ 0x3) : t.chip.regs = s.chip.regs :=
  part_of_exec Chip.regs h
    (write := fun ho => absurd ho hwrite)
    (reset := fun ho => absurd ho hreset)
    (clk := fun _ n c => (chipClock_frame n c).1)
    (render := fun _ n c => (renderChip_registers n c).1)

/-- Only a mapped write and RESET write the active model and W0 (45_chip_commands.md R402, 43_filter.md R326). -/
theorem model_and_w0_of_exec (hwrite : ¬isMappedWrite i) (hreset : opcode i ≠ 0x3) :
    t.chip.modelActive = s.chip.modelActive ∧ t.chip.filt.w0 = s.chip.filt.w0 := by
  refine Prod.mk.inj (part_of_exec (fun c => (c.modelActive, c.filt.w0)) h
    (write := fun _ r d _ hi => absurd (hi ▸ isMappedWrite_wrTo r d) hwrite)
    (reset := fun ho => absurd ho hreset)
    (clk := fun _ n c => ?_)
    (render := fun _ n c => ?_))
  · obtain ⟨-, -, hactive, -, -, hw0, -⟩ := chipClock_frame n c
    exact congrArg₂ Prod.mk hactive hw0
  · obtain ⟨-, hactive, hw0⟩ := renderChip_registers n c
    exact congrArg₂ Prod.mk hactive hw0

end

/-- Settles O15: a WR sets one byte of the list or names an address past its end, RESET clears it, and no other command
writes a register. -/
theorem registersChangeOnlyByWriteAndReset : Obligations.RegistersChangeOnlyByWriteAndReset := by
  intro i s t h
  split_ifs with hwrite hreset
  · rcases write_of_exec h hwrite with ⟨r, d, rfl, rfl⟩ | ⟨haddr, rfl⟩
    · rw [finish_chip, regWrite_regs, registerBytes_setReg, wordOf_wrTo, field_wordWr_addr, field_wordWr_data,
        writeMask_regAddr, BitVec.ofNat_toNat, BitVec.setWidth_eq]
    · rw [finish_chip, List.set_eq_of_length_le (registerBytes_length _ ▸ haddr)]
  · rw [reset_of_exec h hreset, finish_chip, resetBody_regs, registerBytes_reset]
  · rw [regs_of_exec h hwrite hreset]

/-- Settles O24: a mapped write copies the model and computes the coefficients from it, RESET writes those of the
cleared registers, and no other command writes either. -/
theorem modelTakesEffectAtMappedWriteOrReset : Obligations.ModelTakesEffectAtMappedWriteOrReset := by
  refine fun i s t h => ⟨?_, fun hn => model_and_w0_of_exec h (hn ∘ .inl) (hn ∘ .inr)⟩
  rintro (⟨hwrite, hmapped⟩ | hreset)
  · rcases write_of_exec h hwrite with ⟨r, d, -, rfl⟩ | ⟨haddr, -⟩
    · exact ⟨regWrite_modelActive r d s.chip, regWrite_coefficients r d s.chip⟩
    · exact absurd hmapped (Nat.not_le_of_lt haddr)
  · rw [reset_of_exec h hreset]
    exact ⟨rfl, resetBody_coefficients s.chip⟩

end Sys2Proof.Claims
end

section
/-! SUPPORT. Clocking and rendering in the words of the statements: the filter clock field by field, a CLK of no cycle,
and RENDER as RSMP commands in a row (45_chip_commands.md R440 to R443). -/

namespace Sys2Proof.Machine

/-- RSMP in the nearest mode (45_chip_commands.md R441). -/
theorem execRsmp_of_nearest {s : State} (h : s.chip.ext.renderMode = .nearest) :
    execRsmp s = .next (finishEmitting (renderOne s.chip) [outSample (renderOne s.chip)] s) :=
  if_pos h

/-- RSMP and RENDER in another mode (45_chip_commands.md R443). -/
theorem renderGate_of_open {s : State} (h : s.chip.ext.renderMode ≠ .nearest) (t : State) :
    renderGate s t = .next (raise (.unsupported s.chip.ext.renderMode) s) :=
  if_neg h

/-- n rendered samples emit n samples (45_chip_commands.md R442). -/
theorem renderSamples_length (n : Nat) (c : Chip) : (renderSamples n c).length = n := by
  induction n generalizing c with
  | zero => rfl
  | succ n ih => rw [renderSamples, List.length_cons, ih]

end Sys2Proof.Machine

namespace Sys2Proof.Claims

open Sys2Proof.Machine

/-- ChipClock in the words of the statements (45_chip_commands.md R440). -/
theorem chipClock_eq_afterClock (n : Nat) (c : Chip) : chipClock n c = afterClock n c := rfl

/-- A rendered sample in the words of the statements (45_chip_commands.md R441). -/
theorem renderOne_eq_afterSample (c : Chip) : renderOne c = afterSample c := rfl

/-- CLK in the words of the statements (45_chip_commands.md R440). -/
theorem exec_clk (n : BitVec 28) (s : State) :
    exec (.clk n) s = .next (finish (afterClock n.toNat s.chip) s) := by
  rw [← chipClock_eq_afterClock]
  rfl

/-- A clock of no cycle makes no cycle step and no sub-step, so it leaves the voices and the integrators
(43_filter.md R329, R331). -/
theorem afterClock_zero (c : Chip) :
    (afterClock 0 c).osc = c.osc ∧ (afterClock 0 c).env = c.env ∧ (afterClock 0 c).filt.vhp = c.filt.vhp ∧
      (afterClock 0 c).filt.vbp = c.filt.vbp ∧ (afterClock 0 c).filt.vlp = c.filt.vlp :=
  ⟨rfl, rfl, rfl, rfl, rfl⟩

/-- Settles O28: a filter clock is its sub-steps but for the bypass latch, and the sub-steps keep the coefficients. -/
theorem clkRunsCyclesThenFilter : Obligations.ClkRunsCyclesThenFilter :=
  ⟨exec_clk, fun _ _ _ _ => rfl, fun n vs e c => ⟨rfl, rfl, rfl, filterClock_coefficients n vs e c⟩,
    fun s => ⟨_, exec_clk 0#28 s, afterClock_zero s.chip⟩⟩

/-- Settles O51. -/
theorem rsmpRendersOneSample : Obligations.RsmpRendersOneSample := by
  intro s h
  rw [← renderOne_eq_afterSample]
  exact execRsmp_of_nearest h

/-- A command that answers next is followed by the rest of the list. -/
theorem execAll_cons_of_next {i : Instr} {is : List Instr} {s t : State} (h : exec i s = .next t) :
    execAll (i :: is) s = execAll is t := by
  rw [execAll, h]

/-- n RSMP commands in a row leave the block and the samples of RENDER n, with one response each
(45_chip_commands.md R442). -/
theorem execAll_replicate_rsmp (n : Nat) {s : State} (h : s.chip.ext.renderMode = .nearest) :
    execAll (List.replicate n .rsmp) s =
      .next { finishEmitting (renderChip n s.chip) (renderSamples n s.chip) s with
        results := s.results ++ List.replicate n .ok } := by
  induction n generalizing s with
  | zero => simp [execAll, finishEmitting, renderChip, renderSamples]
  | succ n ih =>
    have hmode : (renderOne s.chip).ext.renderMode = .nearest := by
      obtain ⟨-, -, -, hext, -⟩ := renderOne_frame s.chip
      rw [hext, h]
    have hfirst : exec .rsmp s = .next (finishEmitting (renderOne s.chip) [outSample (renderOne s.chip)] s) :=
      execRsmp_of_nearest h
    rw [List.replicate_succ, execAll_cons_of_next hfirst, ih hmode]
    simp [finishEmitting, renderSamples, renderChip, repeatTimes_succ, List.replicate_succ]

/-- Settles O52: by the run of n RSMP commands. -/
theorem renderIsRepeatedRsmp : Obligations.RenderIsRepeatedRsmp := by
  refine ⟨fun n s h => ⟨_, _, execRender_of_nearest h n, execAll_replicate_rsmp n.toNat h, rfl, rfl, ?_, rfl, rfl⟩,
    fun s h => ?_⟩
  · rw [finishEmitting_out, List.length_append, renderSamples_length]
  · refine (execRender_of_nearest h 0#28).trans ?_
    simp [finishEmitting, done, renderChip, renderSamples]

/-- Settles O53: the open modes are not the nearest one, and the response of the fault has status 3. -/
theorem openRenderModesUnsupported : Obligations.OpenRenderModesUnsupported := by
  intro s n hopen
  have hmode : s.chip.ext.renderMode ≠ .nearest := by
    rcases hopen with h | h <;> rw [h] <;> decide
  have hrsmp : exec .rsmp s = .next (raise (.unsupported s.chip.ext.renderMode) s) := renderGate_of_open hmode _
  refine ⟨hrsmp, renderGate_of_open hmode _, fun t ht => ?_⟩
  obtain rfl : raise (.unsupported s.chip.ext.renderMode) s = t := by injection hrsmp.symm.trans ht
  simp [State.noRefusedRender, Response.status]

end Sys2Proof.Claims
end

section
/-! SUPPORT. The reads, the lifecycle and the extension settings: commands with one branch (45_chip_commands.md R420,
R421, R432, R450 to R455). -/

namespace Sys2Proof.Machine

/-- SETEXT BOOST with a legal value (45_chip_commands.md R452). -/
theorem execSetExtBoost_of_le {b : BitVec 9} (h : b.toNat ≤ 256) (s : State) :
    execSetExtBoost b s = .next (finish (recomputeDivq (setExt { s.chip.ext with boost := b } s.chip)) s) :=
  if_pos h

end Sys2Proof.Machine

namespace Sys2Proof.Claims

open Sys2Proof.Machine

/-- Settles O17: the eight selectors, all of which answer and leave the block. -/
theorem monitorReadsChangeNothing : Obligations.MonitorReadsChangeNothing := fun s =>
  have hwave (v : VoiceId) : monWave v s = .next (doneWith ((chipWave s.chip v).setWidth 32) s) := rfl
  have henv (v : VoiceId) : monEnv v s = .next (doneWith ((s.chip.env.get v).level.setWidth 32) s) := rfl
  ⟨hwave .v0, hwave .v1, hwave .v2, henv .v0, henv .v1, henv .v2, rfl, rfl⟩

/-- Settles O19: the reset values written out. -/
theorem resetLeaves : Obligations.ResetLeaves := fun _ => ⟨rfl, registerBytes_reset⟩

/-- Settles O23: `setModel` is the one store. -/
theorem setModelWritesPending : Obligations.SetModelWritesPending := fun _ => ⟨rfl, rfl⟩

/-- Settles O54: every setting is one store, and BOOST computes DIVQ after it. -/
theorem setExtWritesConfiguration : Obligations.SetExtWritesConfiguration := fun s =>
  ⟨fun _ => rfl, fun _ => rfl, fun _ => rfl, fun _ => rfl, fun _ h => execSetExtBoost_of_le h s, fun _ => rfl, rfl, rfl,
    rfl⟩

end Sys2Proof.Claims
end

section
/-! SUPPORT. How a command ends: with status OK, with a result, with samples, or with a fault (60_exceptions.md R500 to
R508). -/

namespace Sys2Proof.Machine

/-- SETEXT GAIN with no voice at V = 3 (30_encoding.md R147). -/
theorem execSetExtGain_of_no_voice (g : BitVec 9) (s : State) :
    execSetExtGain 3#2 g s = .next (raiseIllegal (wordExt 1#4 3#2 g) s) :=
  rfl

/-- SETEXT BOOST above the legal values (30_encoding.md R147). -/
theorem execSetExtBoost_of_gt {b : BitVec 9} (h : 256 < b.toNat) (s : State) :
    execSetExtBoost b s = .next (raiseIllegal (wordExt 2#4 0#2 b) s) :=
  if_neg (Nat.not_le_of_lt h)

end Sys2Proof.Machine

namespace Sys2Proof.Claims

open Sys2Proof.Machine

/-- The four ends of a command: only RD and MON answer, only RSMP and RENDER emit, every other command ends with status
OK or with a fault (R500, R502). -/
theorem exec_ending {i : Instr} {s t : State} (h : exec i s = .next t) :
    (¬(opcode i = 0x2 ∨ opcode i = 0x9) ∧ ∃ c, t = finish c s) ∨
      ((opcode i = 0x2 ∨ opcode i = 0x9) ∧ ∃ w, t = answer w s) ∨
      ((opcode i = 0x7 ∨ opcode i = 0x8) ∧ ∃ c samples, t = finishEmitting c samples s) ∨
      (¬(opcode i = 0x2 ∨ opcode i = 0x9) ∧ ∃ f, f.status ≠ 0 ∧ f.result = none ∧ t = raise f s) := by
  rcases exec_shape h with ⟨ho, _, _, -, ht⟩ | ⟨ho, -, ht⟩ | hanswer | ⟨ho, ht⟩ | ⟨ho, _, ht⟩ |
    ⟨ho, _, _, -, -, ht⟩ | ⟨ho, _, ht⟩ | ⟨ho, _, ht⟩ | ⟨ho, _, ht, -⟩ | ⟨ho, _, -, ht⟩ | ⟨ho, f, hstatus, hresult, ht⟩
  · exact .inl ⟨by omega, _, ht⟩
  · exact .inl ⟨by omega, _, ht⟩
  · exact .inr (.inl hanswer)
  · exact .inl ⟨by omega, _, ht⟩
  · exact .inl ⟨by omega, _, ht⟩
  · exact .inl ⟨by omega, _, ht⟩
  · exact .inl ⟨by omega, _, ht⟩
  · exact .inr (.inr (.inl ⟨ho, _, _, ht⟩))
  · exact .inl ⟨by omega, _, ht⟩
  · exact .inl ⟨by omega, _, ht⟩
  · exact .inr (.inr (.inr ⟨by omega, f, hstatus, hresult, ht⟩))

/-- Settles O56, by the end of the command. -/
theorem oneResponseAndFaultsChangeNothing : Obligations.OneResponseAndFaultsChangeNothing := by
  intro i s t h
  rcases exec_ending h with ⟨ho, c, rfl⟩ | ⟨ho, w, rfl⟩ | ⟨ho, c, samples, rfl⟩ | ⟨ho, f, hstatus, hresult, rfl⟩
  · exact ⟨.ok, rfl, rfl, fun hf => absurd rfl hf, iff_of_false (fun hr => hr rfl) ho, fun hr => absurd rfl hr,
      ⟨[], (List.append_nil _).symm⟩, fun _ => rfl⟩
  · exact ⟨.okResult w, rfl, rfl, fun _ => ⟨rfl, rfl⟩, iff_of_true (Option.some_ne_none w) ho, fun _ => rfl,
      ⟨[], (List.append_nil _).symm⟩, fun _ => rfl⟩
  · exact ⟨.ok, rfl, rfl, fun hf => absurd rfl hf, iff_of_false (fun hr => hr rfl) (by omega), fun hr => absurd rfl hr,
      ⟨samples, rfl⟩, fun hn => absurd ho hn⟩
  · exact ⟨f, rfl, rfl, fun _ => ⟨rfl, rfl⟩, iff_of_false (fun hr => hr hresult) ho, fun _ => rfl,
      ⟨[], (List.append_nil _).symm⟩, fun _ => rfl⟩

/-- Settles O7: an empty port holds, a SETRATE that waits holds, and a whole command leaves the port with a next
state. -/
theorem stepAlwaysAnswersNext : Obligations.StepAlwaysAnswersNext := by
  intro s
  match hs : s.commands with
  | [] => exact ⟨s, step_of_commands_nil hs⟩
  | w :: rest =>
    obtain ⟨hhold, htake⟩ := portHoldsAndTakesWholeCommands s w rest hs
    by_cases hwait : field w 28 4 = 0x5 ∧ rest.length < 2
    · exact ⟨s, hhold hwait⟩
    · obtain ⟨t, hstep, -⟩ := htake hwait
      exact ⟨t, hstep⟩

/-- Settles O55: the six opcodes have one meaning each, and the two ill-formed terms raise with the word of their
fields. -/
theorem illegalCommandsChangeNothing : Obligations.IllegalCommandsChangeNothing := fun s =>
  ⟨fun _ => ⟨rfl, rfl, rfl, rfl, rfl, rfl⟩, fun g => execSetExtGain_of_no_voice g s,
    fun _ h => execSetExtBoost_of_gt h s⟩

end Sys2Proof.Claims
end

section
/-! SUPPORT. Register writes in a row: one register written twice with one byte and read back, and CONTROL with the gate
taken off and put on again (20_memory.md R108, 70_reset_and_hazards.md R610, R614). -/

namespace Sys2Proof

/-- Of two values set for one voice the second stays. -/
theorem set_set {α : Type} (p : PerVoice α) (v : VoiceId) (x y : α) : (p.set v x).set v y = p.set v y := by
  cases v <;> rfl

end Sys2Proof

namespace Sys2Proof.Machine

/-- Of two bytes stored in one register the second stays. -/
theorem setReg_setReg (f : RegFile) (r : RegName) (d d' : Byte) : setReg (setReg f r d) r d' = setReg f r d' := by
  refine regFile_ext fun q => ?_
  by_cases hq : q = r
  · rw [hq, getReg_setReg_same, getReg_setReg_same]
  · rw [getReg_setReg_ne _ hq, getReg_setReg_ne _ hq, getReg_setReg_ne _ hq]

/-! ## The unit half of a repeated write -/

/-- A CONTROL write of the byte that stands clears no TEST bit: with TEST set it clears what is clear, with TEST clear
it does nothing (41_oscillator.md R232). -/
theorem oscWriteControl_repeat (old d : Byte) (o : Osc) :
    oscWriteControl d d (oscWriteControl old d o) = oscWriteControl old d o := by
  have hedge : testCleared d d = false := by simp [testCleared]
  cases htest : testBit d <;> simp [oscWriteControl, htest, hedge]

/-- A CONTROL write of the byte that stands makes no gate edge (42_envelope.md R280). -/
theorem envWriteControl_same (d ad sr : Byte) (e : Env) : envWriteControl d d ad sr e = e := by
  have hon : gateOnEdge d d = false := by simp [gateOnEdge]
  have hoff : gateOffEdge d d = false := by simp [gateOffEdge]
  simp [envWriteControl, hon, hoff]

/-- The rate update of an ATTACK_DECAY write keeps the phase, by which a second one sets the same period
(42_envelope.md R281). -/
theorem envWriteAttackDecay_repeat (d : Byte) (e : Env) :
    envWriteAttackDecay d (envWriteAttackDecay d e) = envWriteAttackDecay d e := by
  obtain ⟨_, phase, _⟩ := e
  cases phase <;> rfl

/-- The rate update of a SUSTAIN_RELEASE write keeps the phase, by which a second one sets the same period
(42_envelope.md R282). -/
theorem envWriteSustainRelease_repeat (d : Byte) (e : Env) :
    envWriteSustainRelease d (envWriteSustainRelease d e) = envWriteSustainRelease d e := by
  obtain ⟨_, phase, _⟩ := e
  cases phase <;> rfl

/-- A write stores into the registers, the oscillators and the envelopes, then copies the model and computes the
coefficients (45_chip_commands.md R400). -/
theorem regWrite_eq_recompute (r : RegName) (d : Byte) (c : Chip) :
    regWrite r d c =
      recompute (copyModel
        { c with regs := (regWrite r d c).regs, osc := (regWrite r d c).osc, env := (regWrite r d c).env }) := by
  cases r <;> rfl

/-- The model copy and the coefficients of a write are there already (45_chip_commands.md R402, 43_filter.md R326). -/
theorem recompute_copyModel_regWrite (r : RegName) (d : Byte) (c : Chip) :
    recompute (copyModel (regWrite r d c)) = regWrite r d c := rfl

end Sys2Proof.Machine

namespace Sys2Proof.Claims

open Sys2Proof.Machine

/-! ## The write repeated and read back -/

/-- The oscillators and the envelopes after a repeated write (20_memory.md R108). -/
theorem regWrite_repeat_units (r : RegName) (d : Byte) (c : Chip) :
    (regWrite r d (regWrite r d c)).osc = (regWrite r d c).osc ∧
      (regWrite r d (regWrite r d c)).env = (regWrite r d c).env := by
  cases r with
  | control v =>
    have hstored : ((regWrite (.control v) d c).regs.voice.get v).control = d &&& 0xFF#8 :=
      (getReg_regWrite (.control v) (.control v) d c).trans (if_pos rfl)
    obtain ⟨hosc, henv⟩ := regWrite_control_units v d c
    obtain ⟨hosc', henv'⟩ := regWrite_control_units v d (regWrite (.control v) d c)
    rw [hosc', henv', hstored, hosc, henv, get_set_same, get_set_same, set_set, set_set, oscWriteControl_repeat,
      envWriteControl_same]
    exact ⟨rfl, rfl⟩
  | attackDecay v =>
    have henv (c : Chip) := (regWrite_rates_env v d c).1
    refine ⟨rfl, ?_⟩
    rw [henv, henv, get_set_same, set_set, envWriteAttackDecay_repeat]
  | sustainRelease v =>
    have henv (c : Chip) := (regWrite_rates_env v d c).2
    refine ⟨rfl, ?_⟩
    rw [henv, henv, get_set_same, set_set, envWriteSustainRelease_repeat]
  | freqLo | freqHi | pwLo | pwHi | fcLo | fcHi | resFilt | modeVol => exact ⟨rfl, rfl⟩

/-- A mapped write done twice leaves the block as done once (20_memory.md R108). -/
theorem regWrite_repeat (r : RegName) (d : Byte) (c : Chip) : regWrite r d (regWrite r d c) = regWrite r d c := by
  have hregs : (regWrite r d (regWrite r d c)).regs = (regWrite r d c).regs := by
    rw [regWrite_regs, regWrite_regs, setReg_setReg]
  obtain ⟨hosc, henv⟩ := regWrite_repeat_units r d c
  rw [regWrite_eq_recompute r d (regWrite r d c), hregs, hosc, henv]
  exact recompute_copyModel_regWrite r d c

/-- RD of a register (45_chip_commands.md R431). -/
theorem exec_rd_regAddr (r : RegName) (s : State) :
    exec (.rd (regAddr r)) s = .next (doneWith ((getReg s.chip.regs r).setWidth 32) s) := by
  rw [← readAddr_regAddr]
  rfl

/-- A WR above 0x18 returns status OK and nothing else (20_memory.md R101). -/
theorem exec_wrCommand_of_unmapped {a : Addr} (h : 0x19 ≤ a.toNat) (d : Byte) (s : State) :
    exec (wrCommand a d) s = .next (done s) := by
  obtain ⟨n, hn⟩ := a
  rw [BitVec.toNat_ofFin] at h
  interval_cases n <;> exact unmappedWrite_eq_done s

/-- Settles O16: a register's write is idempotent and its byte reads back masked, and a write above 0x18 does
nothing. -/
theorem writeReadBackAndRepeat : Obligations.WriteReadBackAndRepeat := by
  intro a d s
  split_ifs with h
  · obtain ⟨r, rfl⟩ := exists_regAddr h
    refine ⟨_, _, exec_wrTo r d s, exec_wrTo r d _, regWrite_repeat r d s.chip, ?_⟩
    rw [exec_rd_regAddr, finish_chip, getReg_regWrite, if_pos rfl, writeMask_regAddr]
  · have hunmapped : 0x19 ≤ a.toNat := Nat.lt_of_not_le h
    exact ⟨_, _, exec_wrCommand_of_unmapped hunmapped d s, exec_wrCommand_of_unmapped hunmapped d _, rfl,
      execRd_of_unmapped hunmapped _⟩

/-! ## The gate off and on -/

/-- The gate taken off from on (42_envelope.md R280). -/
theorem envAfterControl_of_gate_off {r : VoiceRegs} {d : Byte} (hold : r.control.getLsbD 0 = true)
    (hnew : d.getLsbD 0 = false) (e : Env) :
    envAfterControl r d e = { e with phase := .release, rp := ratePeriod (r.sustainRelease.extractLsb' 0 4) } := by
  have hno_on : ¬(r.control.getLsbD 0 = false ∧ d.getLsbD 0 = true) := fun ⟨_, hon⟩ =>
    Bool.false_ne_true (hnew.symm.trans hon)
  rw [envAfterControl, if_neg hno_on, if_pos ⟨hold, hnew⟩]

/-- The gate put on from off (42_envelope.md R280). -/
theorem envAfterControl_of_gate_on {r : VoiceRegs} {d : Byte} (hold : r.control.getLsbD 0 = false)
    (hnew : d.getLsbD 0 = true) (e : Env) :
    envAfterControl r d e =
      { e with phase := .attack, rp := ratePeriod (r.attackDecay.extractLsb' 4 4), holdZero := false } :=
  if_pos ⟨hold, hnew⟩

/-- The voice after a WR of its CONTROL (45_chip_commands.md R407). -/
theorem afterControl_voice (s : State) (v : VoiceId) (d : Byte) :
    voiceRegs (afterControl s v d) v = { voiceRegs s v with control := d } ∧
      (afterControl s v d).chip.env.get v = envAfterControl (voiceRegs s v) d (s.chip.env.get v) :=
  ⟨get_set_same _ _ _, get_set_same _ _ _⟩

/-- Settles O37: the second write finds the byte of the first, so it is a gate-on edge, and it overwrites the phase and
the period the gate-off edge set. -/
theorem gateRetrigger : Obligations.GateRetrigger := by
  intro s v off on hgate hoff hon
  refine ⟨afterControl (afterControl s v off) v on, ?_, ?_⟩
  · rw [execAll_cons_of_next (exec_wrTo_control v off s), execAll_cons_of_next (exec_wrTo_control v on _), execAll]
  · obtain ⟨hregs, henv⟩ := afterControl_voice s v off
    obtain ⟨-, henv'⟩ := afterControl_voice (afterControl s v off) v on
    rw [henv', hregs, henv, envAfterControl_of_gate_off hgate hoff, envAfterControl_of_gate_on hoff hon]

end Sys2Proof.Claims
end

section
/-! SUPPORT. Cycles split over CLK commands, and what RESET and construction leave of a block's past
(45_chip_commands.md R420, R440; 70_reset_and_hazards.md R600, R604, R615). -/

namespace Sys2Proof.Machine

/-! ## Cycles -/

/-- The oscillators and the envelopes after n cycles follow from the registers and themselves: the filter, the models
and the configuration have no part in them (45_chip_commands.md R440). -/
theorem chipCycles_voices_congr (n : Nat) {c c' : Chip} (hregs : c.regs = c'.regs) (hosc : c.osc = c'.osc)
    (henv : c.env = c'.env) :
    (repeatTimes chipCycle n c).osc = (repeatTimes chipCycle n c').osc ∧
      (repeatTimes chipCycle n c).env = (repeatTimes chipCycle n c').env := by
  induction n generalizing c c' with
  | zero => exact ⟨hosc, henv⟩
  | succ n ih =>
    rw [repeatTimes_succ, repeatTimes_succ]
    refine ih hregs ?_ ?_
    · rw [chipCycle_osc, chipCycle_osc, hregs, hosc]
    · rw [chipCycle_env, chipCycle_env, hregs, henv]

/-- A clock of m cycles and one of n move the voices as one clock of m + n (70_reset_and_hazards.md R615): the filter
clock between them touches neither the voices nor the registers. -/
theorem chipClock_add_voices (m n : Nat) (c : Chip) :
    (chipClock n (chipClock m c)).osc = (chipClock (m + n) c).osc ∧
      (chipClock n (chipClock m c)).env = (chipClock (m + n) c).env := by
  have hregs : (chipClock m c).regs = (repeatTimes chipCycle m c).regs := filterHalf_regs m _
  obtain ⟨hosc, henv⟩ := chipClock_voices m c
  obtain ⟨hosc', henv'⟩ := chipClock_voices n (chipClock m c)
  obtain ⟨hosc'', henv''⟩ := chipClock_voices (m + n) c
  rw [hosc', henv', hosc'', henv'', repeatTimes_add]
  exact chipCycles_voices_congr n hregs hosc henv

/-! ## The lifecycle -/

/-- RESET of two blocks of one configuration leaves one block (70_reset_and_hazards.md R604). -/
theorem resetBody_congr {c c' : Chip} (h : configurationOf c = configurationOf c') : c.resetBody = c'.resetBody := by
  obtain ⟨hs, hc, hpending, hext⟩ := Configuration.mk.inj h
  simp [Chip.resetBody, hs, hc, hpending, hext]

/-- RESET keeps the configuration (70_reset_and_hazards.md R601). -/
theorem configurationOf_resetBody (c : Chip) : configurationOf c.resetBody = configurationOf c := rfl

/-- A constructed block is in the reset state (70_reset_and_hazards.md R600). -/
theorem resetBody_constructed (host chip : Word) :
    (Chip.constructed host chip).resetBody = Chip.constructed host chip := rfl

/-- No block is made at a rate of 0 (60_exceptions.md R503). -/
theorem construct_of_zero {host chip : Word} (h : host = 0#32 ∨ chip = 0#32) :
    construct host chip = .error (.configError host chip) :=
  if_pos h

/-- Construction at two rates that are not 0 (70_reset_and_hazards.md R600). -/
theorem construct_of_nonzero {host chip : Word} (hhost : host ≠ 0#32) (hchip : chip ≠ 0#32) :
    construct host chip = .ok { chip := Chip.constructed host chip, commands := [], out := [], results := [] } :=
  if_neg (not_or_intro hhost hchip)

end Sys2Proof.Machine

namespace Sys2Proof.Claims

open Sys2Proof.Machine

/-- RESET in the words of the statements (45_chip_commands.md R420). -/
theorem exec_reset (s : State) : exec .reset s = .next (finish s.chip.resetBody s) := rfl

/-- Settles O29: the counts add without overflow. -/
theorem clkSplitKeepsVoices : Obligations.ClkSplitKeepsVoices := by
  intro m n s h
  have hvoices := chipClock_add_voices m.toNat n.toNat s.chip
  rw [← BitVec.toNat_add_of_lt h] at hvoices
  exact ⟨_, _, _, exec_clk m s, exec_clk n _, exec_clk (m + n) s, hvoices⟩

/-- Settles O20: RESET keeps the configuration, on which alone its block depends. -/
theorem resetForgetsHistory : Obligations.ResetForgetsHistory := fun s s' h =>
  ⟨_, _, _, exec_reset s, exec_reset s', resetBody_congr h, exec_reset _,
    resetBody_congr (configurationOf_resetBody s.chip)⟩

/-- Settles O22: RESET finds a constructed block as it leaves it. -/
theorem constructionState : Obligations.ConstructionState :=
  ⟨fun _ _ => construct_of_zero,
    fun host chip hhost hchip =>
      ⟨_, _, construct_of_nonzero hhost hchip, exec_reset _, resetBody_constructed host chip, rfl, rfl, rfl, rfl, rfl,
        rfl⟩,
    construct_of_nonzero (by decide) (by decide)⟩

end Sys2Proof.Claims
end
